-- ==== Sys2Proof/Word.lean ====
section
/-! DEFINITION. The widths and the index types of the part, and fixed banks of like things. -/

namespace Sys2Proof

/-- One byte of host memory or of a page. -/
abbrev Byte := BitVec 8

/-- A 32-bit register, counter, time or packed tag. -/
abbrev Word := BitVec 32

/-- A 64-bit host address or link mask. -/
abbrev Addr := BitVec 64

/-- A link, 0..63: port times 2 plus leg (R4). -/
abbrev LinkId := Fin 64

/-- A port, 0..31. -/
abbrev PortId := Fin 32

/-- A Lane Test Engine, 0..15 (R111). -/
abbrev EngineId := Fin 16

/-- A lane of a cage, or a lane inside a leg. -/
abbrev Lane := Fin 8

/-- A running timer holds the time left in ns; `none` is a stopped one (R62, R63). -/
abbrev Timer := Option Nat

/-- A bank of `n` equal things. -/
def Bank.fill {α : Type} (n : Nat) (a : α) : Vector α n := ⟨⟨List.replicate n a⟩, by simp⟩

/-- The same change made to every thing of a bank. -/
def Bank.map {α β : Type} {n : Nat} (f : α → β) (v : Vector α n) : Vector β n :=
  ⟨⟨v.toList.map f⟩, by simp⟩

/-- A bank whose i-th thing is computed from i. -/
def Bank.of {α : Type} (n : Nat) (f : Nat → α) : Vector α n :=
  ⟨⟨(List.range n).map f⟩, by simp⟩

/-- All indexes below `n` in rising order. -/
def allBelow : (n : Nat) → List (Fin n)
  | 0 => []
  | n + 1 => (allBelow n).map (fun i => i.castSucc) ++ [Fin.last n]

end Sys2Proof
end

