-- ==== Sys2Proof/Machine/Types.lean ====
section
/-! DEFINITION. The enumerations with their codes (R196) and the records the blocks of the part keep. -/

namespace Sys2Proof.Machine

/-! ## End tags and splits -/

/-- An end tag C.S.P.L (R1). Chassis 0 stands for no tag. -/
structure Tag where
  chassis : BitVec 12
  slot    : BitVec 3
  port    : BitVec 5
  leg     : BitVec 1
  deriving DecidableEq, Repr

/-- The no-tag value (R1). -/
def Tag.no : Tag := ⟨0, 0, 0, 0⟩

/-- How a port is used (R3). -/
inductive Split where
  | whole | half
  deriving DecidableEq, Repr

/-! ## Link states and reasons -/

/-- The nine link states (R60). -/
inductive LinkState where
  | off | listen | pairing | verify | train | qualify | up | backoff | held
  deriving DecidableEq, Repr

/-- A conversation exists in the states written PAIRING..UP (R60). -/
def LinkState.conversing : LinkState → Bool
  | .pairing | .verify | .train | .qualify | .up => true
  | .off | .listen | .backoff | .held => false

/-- The states in which a link is quiet: no page is taken (R41, R60). -/
def LinkState.quiet : LinkState → Bool
  | .off | .backoff | .held => true
  | .listen | .pairing | .verify | .train | .qualify | .up => false

/-- The states on whose entry the Page Link is cleared (R58). -/
def LinkState.clears : LinkState → Bool
  | .listen | .off | .backoff | .held => true
  | .pairing | .verify | .train | .qualify | .up => false

/-- High-rate signalling runs in TRAIN, QUALIFY and UP (R39). -/
def LinkState.highRate : LinkState → Bool
  | .train | .qualify | .up => true
  | .off | .listen | .pairing | .verify | .backoff | .held => false

/-- The 18 discrepancy kinds (R133). -/
inductive DiscKind where
  | unexpectedNeighbour | unexpectedCable | missingCable | loopedToSelf | mixedCable | splitMismatch
  | laneMissing | laneConflict | laneOrder | length | skewExcess | qualityFail | qualityMarginal
  | peerMismatch | peerRefused | neighbourChanged | planRowInvalid | heldDown
  deriving DecidableEq, Repr

/-- The values of last reason (R6); `disc` is never used with HELD_DOWN. -/
inductive Reason where
  | none
  | disc (kind : DiscKind)
  | peerSilent | timeoutPairing | timeoutVerify | timeoutTrain | timeoutQualify | linkLost
  | noisySideband | errorBurst
  | adminDown | peerAdmin | peerPlan | planDisabled | planRestart
  deriving DecidableEq, Repr

/-- The verdicts (R8). -/
inductive Verdict where
  | pass | marginal | fail
  deriving DecidableEq, Repr

/-- The worse of two verdicts: FAIL, then MARGINAL, then PASS (R129). -/
def Verdict.worse : Verdict → Verdict → Verdict
  | .fail, _ => .fail
  | _, .fail => .fail
  | .marginal, _ => .marginal
  | _, .marginal => .marginal
  | .pass, .pass => .pass

/-- BYE reasons (R45). -/
inductive ByeReason where
  | admin | plan | refused
  deriving DecidableEq, Repr

/-! ## The cabling plan -/

/-- Expectation kinds (R19). -/
inductive ExpectKind where
  | specific | any | none
  deriving DecidableEq, Repr, Inhabited

/-- Strictness of a leg (R19). -/
inductive Strictness where
  | report | enforce
  deriving DecidableEq, Repr, Inhabited

/-- Remap policy of a leg (R19). -/
inductive Remap where
  | allow | forbid
  deriving DecidableEq, Repr, Inhabited

/-- The causes of an INVALID row (R21). -/
inductive RowCause where
  | torn | badSplit | badField | badClass | badTag
  deriving DecidableEq, Repr

/-- The kept fields of a leg in use (R19, R22): the tag only for SPECIFIC, expected length and tolerance only
with length present. -/
structure LegPlan where
  kind       : ExpectKind
  tag        : Option Tag
  length     : Option (Nat × Nat)
  cls        : Fin 4
  strict     : Strictness
  remap      : Remap
  retryLimit : Nat
  priority   : Nat
  deriving DecidableEq, Repr, Inhabited

/-- A VALID row as kept: the fields of leg 1 only under HALF (R18, R22). -/
structure PlanRow where
  enable : Bool
  split  : Split
  leg0   : LegPlan
  leg1   : Option LegPlan
  deriving DecidableEq, Repr

/-- A row state of the Plan Cache (R23). -/
inductive RowState where
  | absent
  | valid (row : PlanRow)
  | invalid (cause : RowCause)
  deriving DecidableEq, Repr

/-- Refresh scopes with their index (R34). -/
inductive Scope where
  | link (n : LinkId)
  | port (p : PortId)
  | pair (e : EngineId)
  | all
  deriving DecidableEq, Repr

/-- A load waiting for service (R25); `ref` is the take sequence of its order. -/
inductive LoadReq where
  | start
  | adopt (ref : Word) (base : Addr)
  | refresh (ref : Word) (scope : Scope)
  deriving DecidableEq, Repr

/-- The load in progress (R20, R25): rows still to read (the head is being read), reads made of the head, the
new values held aside (the staging copy or the held row set), whether a read is outstanding. -/
structure Load where
  req     : LoadReq
  base    : Addr
  todo    : List PortId
  tries   : Nat
  aside   : List (PortId × RowState)
  reading : Bool
  deriving DecidableEq, Repr

/-- A row change handed to a sequencer: the row before and after, from which the changed groups of R24 are
read. -/
structure RowDelta where
  old : RowState
  new : RowState
  deriving DecidableEq, Repr

/-! ## The anchor block -/

/-- A class entry, clamped (R127). -/
structure ClassEntry where
  pass      : Nat
  marginal  : Nat
  units     : Nat
  skewLimit : Nat
  burst     : Nat
  deriving DecidableEq, Repr, Inhabited

/-- The anchor in effect, with the clamped values (R182, R183). -/
structure Anchor where
  orderBase  : Addr
  planBase   : Addr
  recordBase : Addr
  logBase    : Addr
  statusBase : Addr
  winLow     : Addr
  winHigh    : Addr
  slotCount  : Nat
  logLength  : Nat
  trigger    : Nat
  holdoff    : Nat
  chassis    : BitVec 12
  slot       : BitVec 3
  classes    : Vector ClassEntry 4
  deriving DecidableEq, Repr

/-- The anchor checks (R183). -/
inductive AnchorCause where
  | align | chassis | slot | window | slotCount | region
  deriving DecidableEq, Repr

/-! ## The link record -/

/-- The far end of a link (R7). -/
structure Neighbour where
  tag   : Tag
  split : Split
  deriving DecidableEq, Repr

/-- The peer's expectation of this end; the tag is present when the kind is SPECIFIC (R7). -/
structure FarExpect where
  kind : ExpectKind
  tag  : Option Tag
  deriving DecidableEq, Repr

/-- A present lane map entry (R7). -/
structure LaneEntry where
  far      : Lane
  inverted : Bool
  deriving DecidableEq, Repr

/-- The link record (R5, R7, R8, R9). -/
structure LinkRecord where
  generation : BitVec 16
  state      : LinkState
  prev       : LinkState
  lastReason : Reason
  exhausted  : Bool
  adminDown  : Bool
  selfCheck  : Bool
  neighbour  : Option Neighbour
  farExpect  : Option FarExpect
  laneMap    : List (Option LaneEntry)
  pilot      : Option Lane
  length     : Option Nat
  skewSpan   : Option Nat
  deskew     : List (Option Nat)
  laneLmis   : List (Option Nat)
  legLmi     : Option Nat
  localV     : Option Verdict
  peerV      : Option Verdict
  finalV     : Option Verdict
  upSince    : Option Word
  retries    : Nat
  flap       : Nat
  pageErrors : Nat
  overruns   : Nat
  deriving DecidableEq, Repr

/-- The record after power-on, with lists of the given width (R11). -/
def LinkRecord.fresh (width : Nat) : LinkRecord where
  generation := 0
  state := .off
  prev := .off
  lastReason := .none
  exhausted := false
  adminDown := false
  selfCheck := false
  neighbour := none
  farExpect := none
  laneMap := List.replicate width none
  pilot := none
  length := none
  skewSpan := none
  deskew := List.replicate width none
  laneLmis := List.replicate width none
  legLmi := none
  localV := none
  peerV := none
  finalV := none
  upSince := none
  retries := 0
  flap := 0
  pageErrors := 0
  overruns := 0

/-! ## Pages -/

/-- What a page carries (R42 to R45). -/
inductive PageBody where
  | beacon (split : Split) (lane : Lane)
  | ident (split : Split) (kind : ExpectKind) (strict : Strictness) (tag : Tag) (units burst : Nat)
  | echoReq (seq : Fin 3)
  | echoReply (seq : Fin 3) (hold : Nat)
  | trainReady
  | trained
  | qualReady (seed : Word)
  | qualResult (verdict : Verdict) (lmi : Nat)
  | requal
  | keepalive
  | bye (reason : ByeReason)
  | hold
  | resume
  deriving DecidableEq, Repr

/-- A page that passed the content test (R38, R40). -/
structure Page where
  sender : Tag
  body   : PageBody
  deriving DecidableEq, Repr

/-- The receive tags of a page that is not untagged (R40). -/
inductive RxTag where
  | frame | check
  deriving DecidableEq, Repr

/-- An entry of the receive FIFO (R53). -/
inductive RxEntry where
  | untagged (page : Page)
  | tagged (tag : RxTag) (bytes : List Byte)
  deriving DecidableEq, Repr

/-- A page waiting in the transmit queue (R51). -/
inductive TxItem where
  | beacon
  | ident
  | echoReq (seq : Fin 3)
  | trainReady
  | trained
  | qualReady (seed : Word)
  | qualResult (verdict : Verdict) (lmi : Nat)
  | requal
  | keepalive
  | bye (reason : ByeReason)
  deriving DecidableEq, Repr

/-- A flow-control page that is owed or being sent (R55). -/
inductive FlowPage where
  | hold | resume
  deriving DecidableEq, Repr

/-- What is in transmission on lane 0 (R52). -/
inductive Sent where
  | item (it : TxItem)
  | flow (f : FlowPage)
  | echoReply (seq : Fin 3)
  deriving DecidableEq, Repr

/-- The page in progress: what it is, its bytes as built at its start, whether it is in high-rate form. -/
structure Sending where
  what  : Sent
  bytes : List Byte
  high  : Bool
  deriving DecidableEq, Repr

/-- An owed ECHO_REPLY: the request's sequence number and when its arrival ended (R50). -/
structure EchoOwed where
  seq : Fin 3
  ended : Nat
  deriving DecidableEq, Repr

/-- BYE copies still to be queued (R49). -/
structure ByeOut where
  reason : ByeReason
  left   : Nat
  deriving DecidableEq, Repr

/-! ## Discovery, deskew, echo -/

/-- A present lane observation (R90). -/
structure Obs where
  tag      : Tag
  split    : Split
  far      : Lane
  inverted : Bool
  seen     : Word
  deriving DecidableEq, Repr

/-- The state of one echo sample (R105). -/
inductive Sample where
  | waiting
  | outstanding (sentAt : Nat) (timer : Nat)
  | answered (rtt hold x : Nat)
  | lost
  deriving DecidableEq, Repr

/-- An ECHO_REPLY handed to the Deskew and Echo Unit with its arrival stamp (R50). -/
structure EchoReply where
  seq   : Fin 3
  hold  : Nat
  stamp : Nat
  deriving DecidableEq, Repr

/-- The length measurement of a link (R105). -/
structure Echo where
  running : Bool
  samples : Vector Sample 3
  next    : Nat
  timer   : Timer
  replies : List EchoReply
  deriving DecidableEq, Repr

/-- No measurement, no reply on its way (R110). -/
def Echo.idle : Echo := ⟨false, Bank.fill 3 .lost, 3, none, []⟩

/-- The skew measurement of a link (R102, R110). `gap last` waits for the gap and for the reference, with the
time of the last marker seen (0, the entry to TRAIN, when none was). -/
inductive Skew where
  | idle
  | gap (last : Nat)
  | collecting (reference : Nat) (offsets : Vector (Option Nat) 8)
  deriving DecidableEq, Repr

/-- What the Deskew and Echo Unit reports of a skew measurement (R70, R103). -/
inductive SkewOutcome where
  | applied (span : Nat) (delays : List Nat)
  | excess (span : Nat)
  | missing (lane : Lane)
  deriving DecidableEq, Repr

/-! ## Messages between blocks -/

/-- A finding of the map checks that refuses the cable (R96, R97). -/
structure Finding where
  kind     : DiscKind
  lane     : Lane
  observed : Tag
  seen     : Word
  deriving DecidableEq, Repr

/-- An event on its way to a Link Sequencer (R60). `ref` is the take sequence of the order that asks. -/
inductive SeqEvent where
  | firstBeacon (lane : Lane)
  | quietBeacon (lane : Lane) (tag : Tag) (seen : Word)
  | mapOutcome (complete : Bool)
  | mapFinding (finding : Finding)
  | page (page : Page)
  | pageError
  | lengthResult (length : Option Nat)
  | skewResult (outcome : SkewOutcome)
  | grant
  | runResult (lmis : List Nat) (leg : Nat) (verdict : Verdict)
  | bringUp (ref : Word)
  | takeDown (ref : Word)
  | requalify (ref : Word) (prio : Nat)
  | stateQuery (ref : Word)
  | rowChange (delta : RowDelta)
  deriving DecidableEq, Repr

/-- A message of a link to its engine (R113, R116). -/
inductive EngMsg where
  | request (prio : Nat)
  | departure
  deriving DecidableEq, Repr

/-- What a link event carries (R157). -/
inductive EventBody where
  | state (entered left : LinkState)
  | discrepancy (kind : DiscKind) (detail : Word)
  | verdict (final : Verdict) (lmi : Nat)
  deriving DecidableEq, Repr

/-- A link event with the uptime at which it happened (R157) and the takes whose orders were in READING then, to which
it is not offered (R176). -/
structure LinkEvt where
  body    : EventBody
  time    : Word
  reading : List Word
  deriving DecidableEq, Repr

/-- A sequencer's answer to a context (R168, R169, R170, R177). -/
inductive Answer where
  | acted (yes : Bool)
  | state (st : LinkState)
  | started
  deriving DecidableEq, Repr

/-- The record's qualification fields at a departure from QUALIFY (R171). -/
structure QualSnapshot where
  lmis   : List (Option Nat)
  leg    : Option Nat
  localV : Option Verdict
  peerV  : Option Verdict
  finalV : Option Verdict
  deriving DecidableEq, Repr

/-- A message of a link to the Order Unit (R157, R162). -/
inductive OrdMsg where
  | event (ev : LinkEvt)
  | answer (ref : Word) (a : Answer)
  | requalDone (ref : Word) (q : QualSnapshot)
  deriving DecidableEq, Repr

/-- A discrepancy on its way to the Log Unit (R73, R133). -/
structure Discrepancy where
  kind     : DiscKind
  detail   : Word
  expected : Option Tag
  observed : Option Tag
  far      : Option FarExpect
  time     : Word
  deriving DecidableEq, Repr

/-- What the lane transmitters send beside the pages of lane 0: a direct beacon (R46), a marker on every lane
(R101), a start block on every lane (R121). -/
inductive WireOut where
  | beacon (lane : Lane) (bytes : List Byte)
  | markers
  | startBlocks (seed : Word)
  deriving DecidableEq, Repr

/-! ## The sequencer's private state -/

/-- The run of a link's qualification (R118). -/
inductive RunState where
  | notStarted | running | ended
  deriving DecidableEq, Repr

/-- The private flags that every transition clears (R61, R62, R98, R118). -/
structure Stage where
  trainReadySent : Bool := false
  trainReadyRecv : Bool := false
  trainedSent    : Bool := false
  trainedRecv    : Bool := false
  verifyPassed   : Bool := false
  tagged         : Nat := 0
  heard          : Bool := false
  mapComplete    : Bool := false
  granted        : Bool := false
  qualReadySent  : Bool := false
  qualReadyRecv  : Bool := false
  peerSeed       : Option Word := none
  run            : RunState := .notStarted
  requalAnswered : Bool := false
  byRequalify    : Bool := false
  deriving DecidableEq, Repr

/-- The timers of a link's sequencer and announcer (R47, R48, R63, R64, R84). -/
structure Timers where
  presence    : Timer := none
  absence     : Timer := none
  pairing     : Timer := none
  verify      : Timer := none
  train       : Timer := none
  qualifyWait : Timer := none
  peerResult  : Timer := none
  backoff     : Timer := none
  peerSilent  : Timer := none
  announce    : Timer := none
  keepalive   : Timer := none
  burst       : Timer := none
  deriving DecidableEq, Repr

/-- All that the part keeps for one link. -/
structure Link where
  record     : LinkRecord
  stage      : Stage
  timers     : Timers
  peerUnits  : Option Nat
  peerBurst  : Option Nat
  ownSeed    : Option Word
  requalRef  : Option Word
  burstCount : Nat
  burstLimit : Nat
  gate       : Bool
  tx         : List TxItem
  sending    : Option Sending
  owedFlow   : Option FlowPage
  owedEcho   : Option EchoOwed
  holdForce  : Timer
  heldBy     : Timer
  bye        : Option ByeOut
  byeTimer   : Timer
  rx         : List RxEntry
  obs        : Vector (Option Obs) 8
  echo       : Echo
  skew       : Skew
  delays     : Option (List Nat)
  inbox      : List SeqEvent
  toEngine   : List EngMsg
  toOrder    : List OrdMsg
  toLog      : List Discrepancy
  wire       : List WireOut
  deriving DecidableEq, Repr

/-- A link after power-on (R11, R59, R62, R90, R110). -/
def Link.fresh (width : Nat) : Link where
  record := LinkRecord.fresh width
  stage := {}
  timers := {}
  peerUnits := none
  peerBurst := none
  ownSeed := none
  requalRef := none
  burstCount := 0
  burstLimit := 0
  gate := false
  tx := []
  sending := none
  owedFlow := none
  owedEcho := none
  holdForce := none
  heldBy := none
  bye := none
  byeTimer := none
  rx := []
  obs := Bank.fill 8 none
  echo := Echo.idle
  skew := .idle
  delays := none
  inbox := []
  toEngine := []
  toOrder := []
  toLog := []
  wire := []

/-! ## Lane Test Engines -/

/-- Engine states (R111). -/
inductive EnginePhase where
  | free | granted | running
  deriving DecidableEq, Repr

/-- A self-check as its order asks for it (R130, R172). -/
structure SelfCheck where
  ref       : Word
  port      : PortId
  units     : Nat
  threshold : Nat
  prio      : Nat
  deriving DecidableEq, Repr

/-- An owner or a waiting entry: a link or a self-check (R111, R112). -/
inductive Owner where
  | link (l : LinkId)
  | self (c : SelfCheck)
  deriving DecidableEq, Repr

/-- An entry of a waiting list with the priority it carries (R112). -/
structure WaitEntry where
  who  : Owner
  prio : Nat
  deriving DecidableEq, Repr

/-- A Lane Test Engine (R111, R112, R121). `place` is where each lane stands in the far end's pattern: the words
received since its start block, none where it waits for it. -/
structure Engine where
  phase    : EnginePhase
  owner    : Option Owner
  waiting  : List WaitEntry
  seed     : Option Word
  window   : Option Nat
  place    : Vector (Option Nat) 8
  words    : Vector Nat 8
  errors   : Vector Nat 8
  runLimit : Timer
  deriving DecidableEq, Repr

/-- A FREE engine with the given list (R117). -/
def Engine.free (waiting : List WaitEntry) : Engine :=
  ⟨.free, none, waiting, none, none, Bank.fill 8 none, Bank.fill 8 0, Bank.fill 8 0, none⟩

/-! ## The discrepancy log -/

/-- A HELD record (R132). -/
structure HeldRec where
  link      : LinkId
  first     : DiscKind
  latest    : DiscKind
  count     : Nat
  expected  : Option Tag
  observed  : Option Tag
  far       : Option FarExpect
  detail    : Word
  firstTime : Word
  lastTime  : Word
  deriving DecidableEq, Repr

/-! ## Orders -/

/-- Order statuses (R156). -/
inductive Status where
  | ok | partialDone | badOrder | badRegion | notPermitted | recalled | stopped | timeout | linkLost | busFault
  deriving DecidableEq, Repr

/-- An entry of the pending set (R150). -/
structure PostEntry where
  slot : Nat
  prio : Nat
  mark : Word
  deriving DecidableEq, Repr

/-- The pattern of a LOCATE; `none` is ANY (R174). -/
structure LocatePat where
  chassis : Option (BitVec 12)
  slot    : Option (BitVec 3)
  port    : Option (BitVec 5)
  leg     : Option (BitVec 1)
  live    : Bool
  deriving DecidableEq, Repr

/-- The event kinds a WATCH selects (R175). -/
structure WatchSet where
  state       : Bool
  discrepancy : Bool
  verdict     : Bool
  deriving DecidableEq, Repr

/-- An order's kind, flags and parameters as read at the take (R161 to R179). -/
inductive Order where
  | adoptPlan (base : Addr)
  | refresh (scope : Scope)
  | bringUp (mask : Addr)
  | takeDown (mask : Addr)
  | requalify (link : LinkId)
  | selfCheck (port : PortId) (units threshold : Nat)
  | locate (pat : LocatePat)
  | watch (mask : Addr) (kinds : WatchSet) (base : Addr) (count : Nat)
  | await (mask : Addr) (states : BitVec 9) (timeout : Nat) (any : Bool)
  | fence (notify : Bool)
  deriving DecidableEq, Repr

/-- WATCH and AWAIT are standing orders (R151). -/
def Order.standing : Order → Bool
  | .watch .. | .await .. => true
  | .adoptPlan _ | .refresh _ | .bringUp _ | .takeDown _ | .requalify _ | .selfCheck .. | .locate _
  | .fence _ => false

/-- How far an ACTIVE order has come. -/
inductive Progress where
  /-- ADOPT_PLAN, REFRESH: the load is asked; SELF_CHECK: the engine is asked. -/
  | atWork
  /-- BRING_UP, TAKE_DOWN, SELF_CHECK's first question: links that have not answered, links that acted. -/
  | asking (waiting : List LinkId) (acted : Addr)
  /-- WATCH: entries written. -/
  | written (n : Nat)
  /-- AWAIT: links that have not answered, the view, the time left. -/
  | viewing (waiting : List LinkId) (view : List (LinkId × LinkState)) (timer : Timer)
  /-- FENCE: the takes still awaited, and how many were recorded. -/
  | fencing (left : List Word) (awaited : Nat)
  deriving DecidableEq, Repr

/-- The three phases of an order in flight (R151). -/
inductive Phase where
  /-- The slot read is outstanding, or (`faulted`) has faulted and is made again on RESUME (R153). -/
  | reading (faulted : Bool)
  | active (order : Order) (progress : Progress)
  /-- `standing` says whether the order's kind is WATCH or AWAIT (R179). -/
  | closing (status : Status) (standing : Bool)
  deriving DecidableEq, Repr

/-- An order in flight (R151), known by its take sequence. -/
structure Ctx where
  slot  : Nat
  prio  : Nat
  seq   : Word
  phase : Phase
  deriving DecidableEq, Repr

/-- A load's end on its way to its context (R162): whether it applied, the actual scope, the counts of R24. -/
structure LoadReport where
  ref     : Word
  applied : Bool
  scope   : Option Scope
  changed : Nat
  bad     : Nat
  deriving DecidableEq, Repr

/-! ## The Record Writer -/

/-- One step of a write: its first address and its bytes. -/
structure WStep where
  addr  : Nat
  bytes : List Byte
  deriving DecidableEq, Repr

/-- What a status block entry is for: an ordinary one, the one stage 3 of LOADING waits for (R184), the one
that marks entry to IDLE (R185). -/
inductive StatusMark where
  | plain | loading | idle
  deriving DecidableEq, Repr

/-- What a write queue entry is (R140, R155, R176, R193, R198). A DONE write names its slot, the context that
queued it if one did, and whether it is of a FENCE with NOTIFY. -/
inductive QKind where
  | taken | result
  | done (slot : Nat) (ref : Option Word) (notify : Bool)
  | watch | alloc | collapse | release | clear
  | status (mark : StatusMark)
  deriving DecidableEq, Repr

/-- A write queue entry with its steps as they stood when it was queued; a status entry has none until its
fields are sampled (R193). -/
structure QEntry where
  kind  : QKind
  steps : List WStep
  deriving DecidableEq, Repr

/-- The two sources of the Record Writer (R15). -/
inductive Source where
  | dirtySet | queue
  deriving DecidableEq, Repr

/-- The write in progress (R12, R13, R15). -/
inductive Writing where
  /-- A record write: link, address of its record, generation at its beginning, sampled body, the state it carries,
  whether it counts for stage 4 of LOADING, the step in issue, and whether CP_RESET has ended it, so that no step
  follows. -/
  | record (link : LinkId) (base : Nat) (gen : BitVec 16) (body : List Byte) (carried : LinkState) (counts : Bool)
      (step : Fin 3) (ended : Bool)
  /-- The head of the write queue, with its steps. -/
  | queue (steps : List WStep)
  /-- After CP_RESET: the step of a write queue entry that was in issue finishes, with no other effect (R13). -/
  | finishing (step : WStep)
  deriving DecidableEq, Repr

/-! ## The part -/

/-- The five part states (R181). -/
inductive PartState where
  | idle | loading | running | quiescing | faulted
  deriving DecidableEq, Repr

/-- The immediate results of an attention word, and NONE (R147, R181). -/
inductive AttnResult where
  | none | accepted | badIndex | duplicate | notFound | tooLate | notRunning
  deriving DecidableEq, Repr

/-- Load results (R181). -/
inductive LoadResult where
  | none | ok | badAnchor
  deriving DecidableEq, Repr

/-- Bus fault kinds (R180, R190). -/
inductive FaultKind where
  | none | readError | writeError | window
  deriving DecidableEq, Repr

/-- Bus fault sources (R190). -/
inductive FaultSource where
  | none | anchorRead | planRead | slotRead | recordWrite | queueWrite
  deriving DecidableEq, Repr

/-- The anchor read of LOADING (R184). -/
inductive AnchorRead where
  | idle | outstanding | faulted
  deriving DecidableEq, Repr

/-- The stage of LOADING that was reached (R184). -/
inductive LoadStage where
  | anchor
  | plan
  /-- The START load has applied, and its changed rows wait for their links (R14). -/
  | reconciling
  /-- Stage 4: the links whose record write is awaited, and whether the status write has landed. -/
  | completing (links : List LinkId) (statusLanded : Bool)
  deriving DecidableEq, Repr

end Sys2Proof.Machine
end

