-- ==== Sys2Proof/Config.lean ====
section
/-! DEFINITION. The free values: what the spec leaves open and the machine goes on with. None has a body, so
nothing in Lean can evaluate one. -/

namespace Sys2Proof

/-- The fixed internal receive-and-send path of this part in ns, which the hold time H of an ECHO_REPLY adds
(R50). The spec states no value. DESIGN CHOICE, assumption log 8. -/
opaque Config.receiveSendPath : Nat

/-- Word `index` of the pattern of a seed and a lane number (R121). The spec does not give the generator.
DESIGN CHOICE, assumption log 9. -/
opaque Config.patternWord (seed : Word) (lane : Nat) (index : Nat) : BitVec 64

/-- The n-th draw of the engines' seed generator (R119); 0 is taken as 1, so that every seed is one of
1..4294967295. DESIGN CHOICE, assumption log 10. -/
opaque Config.seedDraw (n : Nat) : Word

/-- The leg fields that are read while the row is not VALID or the leg is not in use: a row change waits to be
taken by the sequencer. The spec states no value. DESIGN CHOICE, assumption log 11. -/
opaque Config.unreadLeg (l : LinkId) : Machine.LegPlan

/-- The class entry that is read while no class table is in force (R127).
DESIGN CHOICE, assumption log 12. -/
opaque Config.unreadClass : Machine.ClassEntry

/-- The lane that the detail of a SPLIT_MISMATCH by an IDENT in VERIFY names where the pilot lane is absent (R133). The
spec states no value. DESIGN CHOICE, assumption log 64. -/
opaque Config.absentPilot : Lane

end Sys2Proof
end

