-- ==== Sys2Proof/Machine/Formats.lean ====
section
/-! DEFINITION. Byte layouts and codes (R195 to R198): little-endian fields, packed tags, the page with its
check, and the records the part writes. -/

namespace Sys2Proof.Machine

/-! ## Fields -/

/-- The low `k` bytes of a number, least significant first (R195). -/
def leBytes : (k : Nat) → Nat → List Byte
  | 0, _ => []
  | k + 1, n => BitVec.ofNat 8 (n % 256) :: leBytes k (n / 256)

/-- The number that a list of bytes holds, least significant first (R195). -/
def leVal : List Byte → Nat
  | [] => 0
  | b :: bs => b.toNat + 256 * leVal bs

/-- The field of `k` bytes at an offset (R195). -/
def field (bs : List Byte) (off k : Nat) : Nat := leVal ((bs.drop off).take k)

/-- One byte written from a code or a count. -/
def byte1 (n : Nat) : List Byte := leBytes 1 n

/-- `k` reserved bytes, written as 0 (R195). -/
def zeros (k : Nat) : List Byte := List.replicate k 0

/-- A boolean field is bit 0 of its byte (R195). -/
def boolAt (bs : List Byte) (off : Nat) : Bool := field bs off 1 % 2 == 1

/-- A boolean as 0 or 1. -/
def bit (b : Bool) : Nat := if b then 1 else 0

/-- A list cut or filled up to `k` entries (R195, lists). -/
def padTo {α : Type} (k : Nat) (a : α) (xs : List α) : List α := (xs ++ List.replicate k a).take k

/-! ## Packed tags (R1, R195) -/

/-- Chassis in bits 31..20, slot in 18..16, port in 12..8, leg in bit 0. -/
def Tag.pack (t : Tag) : Word :=
  t.chassis ++ (0 : BitVec 1) ++ t.slot ++ (0 : BitVec 3) ++ t.port ++ (0 : BitVec 7) ++ t.leg

/-- The other bits are ignored on read. -/
def Tag.unpack (w : Word) : Tag :=
  ⟨w.extractLsb' 20 12, w.extractLsb' 16 3, w.extractLsb' 8 5, w.extractLsb' 0 1⟩

/-- The order of R1, field by field. -/
def Tag.lower (a b : Tag) : Bool :=
  if a.chassis ≠ b.chassis then decide (a.chassis.toNat < b.chassis.toNat)
  else if a.slot ≠ b.slot then decide (a.slot.toNat < b.slot.toNat)
  else if a.port ≠ b.port then decide (a.port.toNat < b.port.toNat)
  else decide (a.leg.toNat < b.leg.toNat)

/-- Two tags differ only in leg (R1). -/
def Tag.onlyLegDiffers (a b : Tag) : Bool :=
  decide (a.chassis = b.chassis ∧ a.slot = b.slot ∧ a.port = b.port ∧ a.leg ≠ b.leg)

/-- Two tags differ in more than the leg (R1). -/
def Tag.moreThanLegDiffers (a b : Tag) : Bool :=
  decide (a.chassis ≠ b.chassis ∨ a.slot ≠ b.slot ∨ a.port ≠ b.port)

/-- A tag that names an end: chassis 1..4095 (R1). -/
def Tag.named (t : Tag) : Bool := decide (t.chassis ≠ 0)

/-- An absent optional tag is written as 0 (R195). -/
def tagBytes (t : Option Tag) : List Byte := leBytes 4 ((t.map fun t => t.pack.toNat).getD 0)

/-! ## Codes (R196) -/

def LinkState.code : LinkState → Nat
  | .off => 0 | .listen => 1 | .pairing => 2 | .verify => 3 | .train => 4 | .qualify => 5 | .up => 6
  | .backoff => 7 | .held => 8

def PartState.code : PartState → Nat
  | .idle => 0 | .loading => 1 | .running => 2 | .quiescing => 3 | .faulted => 4

def Split.code : Split → Nat
  | .whole => 1 | .half => 2

def ExpectKind.code : ExpectKind → Nat
  | .specific => 1 | .any => 2 | .none => 3

def Strictness.code : Strictness → Nat
  | .report => 1 | .enforce => 2

def Remap.code : Remap → Nat
  | .allow => 1 | .forbid => 2

def Verdict.code : Verdict → Nat
  | .pass => 1 | .marginal => 2 | .fail => 3

def ByeReason.code : ByeReason → Nat
  | .admin => 1 | .plan => 2 | .refused => 3

def RowCause.code : RowCause → Nat
  | .torn => 1 | .badSplit => 2 | .badField => 3 | .badClass => 4 | .badTag => 5

def DiscKind.code : DiscKind → Nat
  | .unexpectedNeighbour => 1 | .unexpectedCable => 2 | .missingCable => 3 | .loopedToSelf => 4
  | .mixedCable => 5 | .splitMismatch => 6 | .laneMissing => 7 | .laneConflict => 8 | .laneOrder => 9
  | .length => 10 | .skewExcess => 11 | .qualityFail => 12 | .qualityMarginal => 13 | .peerMismatch => 14
  | .peerRefused => 15 | .neighbourChanged => 16 | .planRowInvalid => 17 | .heldDown => 18

def Reason.code : Reason → Nat
  | .none => 0
  | .disc k => k.code
  | .peerSilent => 32 | .timeoutPairing => 33 | .timeoutVerify => 34 | .timeoutTrain => 35
  | .timeoutQualify => 36 | .linkLost => 37 | .noisySideband => 38 | .errorBurst => 39
  | .adminDown => 48 | .peerAdmin => 49 | .peerPlan => 50 | .planDisabled => 51 | .planRestart => 52

def Status.code : Status → Nat
  | .ok => 1 | .partialDone => 2 | .badOrder => 3 | .badRegion => 4 | .notPermitted => 5 | .recalled => 6
  | .stopped => 7 | .timeout => 8 | .linkLost => 9 | .busFault => 10

def AnchorCause.code : AnchorCause → Nat
  | .align => 1 | .chassis => 2 | .slot => 3 | .window => 4 | .slotCount => 5 | .region => 6

def AttnResult.code : AttnResult → Nat
  | .none => 0 | .accepted => 1 | .badIndex => 2 | .duplicate => 3 | .notFound => 4 | .tooLate => 5
  | .notRunning => 6

def LoadResult.code : LoadResult → Nat
  | .none => 0 | .ok => 1 | .badAnchor => 2

def FaultKind.code : FaultKind → Nat
  | .none => 0 | .readError => 1 | .writeError => 2 | .window => 3

def FaultSource.code : FaultSource → Nat
  | .none => 0 | .anchorRead => 1 | .planRead => 2 | .slotRead => 3 | .recordWrite => 4 | .queueWrite => 5

/-- Scope kind code and index; the index is 0 for ALL (R165). -/
def Scope.codes : Scope → Nat × Nat
  | .link n => (1, n.val) | .port p => (2, p.val) | .pair e => (3, e.val) | .all => (4, 0)

def splitOf : Nat → Option Split
  | 1 => some .whole | 2 => some .half | _ => none

def expectKindOf : Nat → Option ExpectKind
  | 1 => some .specific | 2 => some .any | 3 => some .none | _ => none

def strictnessOf : Nat → Option Strictness
  | 1 => some .report | 2 => some .enforce | _ => none

def remapOf : Nat → Option Remap
  | 1 => some .allow | 2 => some .forbid | _ => none

def verdictOf : Nat → Option Verdict
  | 1 => some .pass | 2 => some .marginal | 3 => some .fail | _ => none

def byeReasonOf : Nat → Option ByeReason
  | 1 => some .admin | 2 => some .plan | 3 => some .refused | _ => none

/-- The code of an optional value is 0 when it is absent (R195). -/
def optCode {α : Type} (f : α → Nat) (o : Option α) : List Byte := byte1 ((o.map f).getD 0)

/-! ## The page check (R38) -/

/-- One bit through the register: generator x^16 + x^12 + x^5 + 1. -/
def crcBit (reg : BitVec 16) (b : Bool) : BitVec 16 :=
  if reg.getLsbD 15 != b then (reg <<< 1) ^^^ 0x1021 else reg <<< 1

/-- One byte, most significant bit first. -/
def crcByte (reg : BitVec 16) (b : Byte) : BitVec 16 :=
  [7, 6, 5, 4, 3, 2, 1, 0].foldl (fun r i => crcBit r (b.getLsbD i)) reg

/-- The check of a byte string: the register starts at 0xFFFF and is sent as it stands. -/
def crc (bs : List Byte) : BitVec 16 := bs.foldl crcByte 0xFFFF

/-! ## Building a page (R38, R197) -/

/-- Kind code of a page. -/
def PageBody.kindCode : PageBody → Nat
  | .beacon .. => 1 | .ident .. => 2 | .echoReq _ => 3 | .echoReply .. => 4 | .trainReady => 5 | .trained => 6
  | .qualReady _ => 7 | .qualResult .. => 8 | .requal => 9 | .keepalive => 10 | .bye _ => 11 | .hold => 12
  | .resume => 13

/-- Flags of a page (R197). -/
def PageBody.flags : PageBody → Nat
  | .beacon sp _ => sp.code
  | .ident sp k st _ _ _ => sp.code + 4 * k.code + 16 * st.code
  | _ => 0

/-- The eight payload bytes, offsets 6..13 (R197). -/
def PageBody.payload : PageBody → List Byte
  | .beacon _ lane => byte1 lane.val ++ zeros 7
  | .ident _ _ _ tag units burst => leBytes 4 tag.pack.toNat ++ leBytes 2 units ++ leBytes 2 burst
  | .echoReq seq => byte1 seq.val ++ zeros 7
  | .echoReply seq h => byte1 seq.val ++ zeros 1 ++ leBytes 2 h ++ zeros 4
  | .qualReady seed => leBytes 4 seed.toNat ++ zeros 4
  | .qualResult v lmi => byte1 v.code ++ zeros 1 ++ leBytes 2 lmi ++ zeros 4
  | .bye r => byte1 r.code ++ zeros 7
  | .trainReady | .trained | .requal | .keepalive | .hold | .resume => zeros 8

/-- Bytes 0..13 of a page (R197). -/
def pageHead (sender : Tag) (body : PageBody) : List Byte :=
  byte1 body.kindCode ++ byte1 body.flags ++ leBytes 4 sender.pack.toNat ++ body.payload

/-- The 16 bytes of a page (R38, R197). -/
def pageBytes (sender : Tag) (body : PageBody) : List Byte :=
  pageHead sender body ++ leBytes 2 (crc (pageHead sender body)).toNat

/-! ## Judging a received page (R40, R197) -/

/-- Lanes and sequence numbers with their ranges. -/
def finOf (n k : Nat) : Option (Fin n) := if h : k < n then some ⟨k, h⟩ else none

/-- The body that the bytes of a page give, or none where a field lies outside its range (R197). -/
def pageBody (bs : List Byte) : Option PageBody :=
  let flags := field bs 1 1
  match field bs 0 1 with
  | 1 => do
    let sp ← splitOf (flags % 4)
    let lane ← finOf 8 (field bs 6 1)
    some (.beacon sp lane)
  | 2 => do
    let sp ← splitOf (flags % 4)
    let k ← expectKindOf (flags / 4 % 4)
    let st ← strictnessOf (flags / 16 % 4)
    let tag := Tag.unpack (BitVec.ofNat 32 (field bs 6 4))
    let units := field bs 10 2
    let burst := field bs 12 2
    if units = 0 ∨ units > 16384 ∨ burst = 0 then none
    else if k = .specific then (if tag.named then some (.ident sp k st tag units burst) else none)
    else some (.ident sp k st Tag.no units burst)
  | 3 => do some (.echoReq (← finOf 3 (field bs 6 1)))
  | 4 => do some (.echoReply (← finOf 3 (field bs 6 1)) (field bs 8 2))
  | 5 => some .trainReady
  | 6 => some .trained
  | 7 => some (.qualReady (BitVec.ofNat 32 (field bs 6 4)))
  | 8 => do
    let v ← verdictOf (field bs 6 1)
    if field bs 8 2 ≤ 480 then some (.qualResult v (field bs 8 2)) else none
  | 9 => some .requal
  | 10 => some .keepalive
  | 11 => do some (.bye (← byeReasonOf (field bs 6 1)))
  | 12 => some .hold
  | 13 => some .resume
  | _ => none

/-- The receive tag of an arrived page, or the page itself when it passes framing, check and content, in that
order (R40). -/
def judgePage (framed : Bool) (bs : List Byte) : Except RxTag Page :=
  if ¬framed ∨ bs.length ≠ 16 then .error .frame
  else if field bs 14 2 ≠ (crc (bs.take 14)).toNat then .error .check
  else
    let sender := Tag.unpack (BitVec.ofNat 32 (field bs 2 4))
    match pageBody bs with
    | some body => if sender.named then .ok ⟨sender, body⟩ else .error .frame
    | none => .error .frame

/-! ## Records the part writes (section 11.7) -/

/-- A lane map byte: far lane, bit 6 inverted, bit 7 present. -/
def laneMapByte : Option LaneEntry → Byte
  | none => 0
  | some e => BitVec.ofNat 8 (e.far.val + 64 * bit e.inverted + 128)

/-- A per-lane list counts as present when it is not empty and holds no absent entry. -/
def allPresent (xs : List (Option Nat)) : Bool := !xs.isEmpty && xs.all (·.isSome)

/-- The present word of the link record. -/
def LinkRecord.present (r : LinkRecord) : Nat :=
  bit r.length.isSome + 2 * bit r.skewSpan.isSome + 4 * bit (allPresent r.deskew) +
    8 * bit (allPresent r.laneLmis) + 16 * bit r.legLmi.isSome + 32 * bit r.upSince.isSome

/-- The body of a link record: every field but the generation, offsets 2..95 (R195). The lane count is the length of the
record's lists, which between the apply stage of a change of split and the link's ROW_CHANGE is the old width (DESIGN
CHOICE, unsafe, assumption log 53). -/
def LinkRecord.body (r : LinkRecord) : List Byte :=
  byte1 r.state.code ++ byte1 r.prev.code ++ byte1 r.lastReason.code ++
  byte1 (bit r.exhausted + 2 * bit r.adminDown + 4 * bit r.selfCheck) ++
  byte1 r.laneMap.length ++ byte1 ((r.pilot.map (·.val)).getD 0xFF) ++ leBytes 2 r.present ++
  byte1 r.retries ++ byte1 r.flap ++ leBytes 2 r.pageErrors ++ leBytes 2 r.overruns ++
  tagBytes (r.neighbour.map (·.tag)) ++ optCode Split.code (r.neighbour.map (·.split)) ++
  optCode ExpectKind.code (r.farExpect.map (·.kind)) ++ leBytes 2 (r.length.getD 0) ++
  tagBytes (r.farExpect.bind (·.tag)) ++ leBytes 2 (r.skewSpan.getD 0) ++ leBytes 2 (r.legLmi.getD 0) ++
  optCode Verdict.code r.localV ++ optCode Verdict.code r.peerV ++ optCode Verdict.code r.finalV ++ zeros 1 ++
  leBytes 4 ((r.upSince.map (·.toNat)).getD 0) ++
  padTo 8 0 (r.laneMap.map laneMapByte) ++
  padTo 8 0 (r.deskew.map fun d => BitVec.ofNat 8 (d.getD 0)) ++
  (padTo 8 [0, 0] (r.laneLmis.map fun v => leBytes 2 (v.getD 0))).flatten ++ zeros 24

/-- The state word of a discrepancy record: byte 0 is 0 for FREE and 1 for HELD. -/
def logStateWord (held : Bool) : List Byte := leBytes 4 (bit held)

/-- The fields of a discrepancy record other than its state, offsets 4..47. -/
def HeldRec.body (h : HeldRec) : List Byte :=
  byte1 h.link.val ++ byte1 h.first.code ++ byte1 h.latest.code ++ byte1 h.count ++
  optCode ExpectKind.code (h.far.map (·.kind)) ++ zeros 3 ++ tagBytes h.expected ++ tagBytes h.observed ++
  tagBytes (h.far.bind (·.tag)) ++ leBytes 4 h.detail.toNat ++ leBytes 4 h.firstTime.toNat ++
  leBytes 4 h.lastTime.toNat ++ zeros 12

/-- The first and second value of a watch entry (R176). -/
def EventBody.values : EventBody → Nat × Nat
  | .state entered left => (entered.code, left.code)
  | .discrepancy kind detail => (kind.code, detail.toNat)
  | .verdict final lmi => (final.code, lmi)

/-- Watch event kind codes (R196). -/
def EventBody.code : EventBody → Nat
  | .state .. => 1 | .discrepancy .. => 2 | .verdict .. => 3

/-- A watch entry of 16 bytes (R176). -/
def watchBytes (l : LinkId) (ev : LinkEvt) : List Byte :=
  byte1 l.val ++ byte1 ev.body.code ++ zeros 2 ++ leBytes 4 ev.body.values.1 ++ leBytes 4 ev.body.values.2 ++
  leBytes 4 ev.time.toNat

/-- The slot's state word: slot state in bits 7..0, status in bits 15..8 (R198). -/
def slotWord (slotState status : Nat) : List Byte := leBytes 4 (slotState + 256 * status)

/-- A result area of 64 bytes: the fields given and zeros after them (R161, R198). -/
def resultArea (bs : List Byte) : List Byte := padTo 64 0 bs

end Sys2Proof.Machine
end

