-- ==== Sys2Proof/Syntax.lean ====
section
/-! DEFINITION. The commands of the part: one constructor for each row of spec/opcode_table.json. The table
gives no operands; each constructor carries what its rule says arrives from outside the block that takes it
(assumption log 2). -/

namespace Sys2Proof

/-- A page as a lane receiver ends it (R40, R50, R92): whether its framing was good, whether its sync arrived
in the complement, its bytes, and the times in ns at which its first and its last byte arrived. -/
structure Arrival where
  framed   : Bool
  inverted : Bool
  bytes    : List Byte
  first    : Nat
  last     : Nat
  deriving DecidableEq, Repr

/-- The commands (spec/opcode_table.json). Read data is `none` where the memory reports an error (R190). -/
inductive Instr where
  /-- POWER_ON (R189). -/
  | powerOn
  /-- RESET_PIN (R189). -/
  | resetPin
  /-- START, CONTROL value 1 (R184). -/
  | start
  /-- STOP, CONTROL value 2 (R185). -/
  | stop
  /-- RESUME, CONTROL value 3 (R186). -/
  | resume
  /-- CP_RESET, CONTROL value 4 (R188). -/
  | cpReset
  /-- POST: index and priority fields of the attention word (R149, R180). -/
  | post (index : Byte) (prio : BitVec 3)
  /-- RECALL (R154). -/
  | recallSlot (index : Byte)
  /-- RELEASE (R142). -/
  | release (index : Byte)
  /-- ATTENTION_BAD_ACTION: an attention word whose action bits are 0 (R147, R180). -/
  | attentionBadAction (index : Byte) (prio : BitVec 3)
  /-- NOTICE_CLEAR: the word written to NOTICE (R191). -/
  | noticeClear (bits : Word)
  /-- NOTICE_ENABLE_WRITE: the word written to NOTICE_ENABLE (R191). -/
  | noticeEnableWrite (bits : Word)
  /-- REGISTER_WRITE: any other register or offset (R180, R181). -/
  | registerWrite (offset : Word) (value : Word)
  /-- ANCHOR_READ_DONE (R183). -/
  | anchorReadDone (data : Option (Vector Byte 128))
  /-- LOAD_BEGIN (R25). -/
  | loadBegin
  /-- PLAN_ROW_READ_DONE (R20). -/
  | planRowReadDone (data : Option (Vector Byte 64))
  /-- ROW_CHANGE (R27). -/
  | rowChange (link : LinkId)
  /-- TAKE (R152). -/
  | take
  /-- SLOT_READ_DONE, of the take with this sequence number (R153). -/
  | slotReadDone (seq : Word) (data : Option (Vector Byte 128))
  /-- WRITER_BEGIN (R15). -/
  | writerBegin
  /-- RECORD_WRITE_STEP_DONE; `err` when the memory reports an error for the step (R12). -/
  | recordWriteStepDone (err : Bool)
  /-- QUEUE_WRITE_DONE; `err` is the step, counted from 0, for which the memory reports an error (R140). -/
  | queueWriteDone (err : Option Nat)
  /-- PAGE_ARRIVAL on a physical lane of a port (R41). -/
  | pageArrival (port : PortId) (lane : Lane) (page : Arrival)
  /-- PAGE_PROCESSOR_TURN (R54). -/
  | pageProcessorTurn
  /-- PAGE_TX_START on lane 0 of the link, at a time in ns (R52). -/
  | pageTxStart (link : LinkId) (now : Nat)
  /-- PAGE_TX_END on lane 0 of the link, at a time in ns (R56). -/
  | pageTxEnd (link : LinkId) (now : Nat)
  /-- ANNOUNCE_EXPIRY (R47). -/
  | announceExpiry (link : LinkId)
  /-- KEEPALIVE_TIMER_EXPIRY (R48). -/
  | keepaliveTimerExpiry (link : LinkId)
  /-- BYE_COPY_DUE (R49). -/
  | byeCopyDue (link : LinkId)
  /-- HOLD_LIMIT_EXPIRY (R57). -/
  | holdLimitExpiry (link : LinkId)
  /-- HOLD_FORCE_LIMIT_EXPIRY (R56). -/
  | holdForceLimitExpiry (link : LinkId)
  /-- PRESENCE_DEADLINE_EXPIRY (R82). -/
  | presenceDeadlineExpiry (link : LinkId)
  /-- ABSENCE_TIMER_EXPIRY (R83). -/
  | absenceTimerExpiry (link : LinkId)
  /-- PAIRING_TIMER_EXPIRY (R67). -/
  | pairingTimerExpiry (link : LinkId)
  /-- VERIFY_TIMER_EXPIRY (R69). -/
  | verifyTimerExpiry (link : LinkId)
  /-- TRAIN_TIMER_EXPIRY (R70). -/
  | trainTimerExpiry (link : LinkId)
  /-- QUALIFY_WAIT_EXPIRY (R124). -/
  | qualifyWaitExpiry (link : LinkId)
  /-- PEER_RESULT_WAIT_EXPIRY (R124). -/
  | peerResultWaitExpiry (link : LinkId)
  /-- BACKOFF_EXPIRY (R76). -/
  | backoffExpiry (link : LinkId)
  /-- PEER_SILENT_EXPIRY (R64). -/
  | peerSilentExpiry (link : LinkId)
  /-- BURST_INTERVAL_END (R84). -/
  | burstIntervalEnd (link : LinkId)
  /-- LANE_STREAM_ERROR (R84). -/
  | laneStreamError (link : LinkId)
  /-- LOSS_OF_SIGNAL on a physical lane of a port (R80). -/
  | lossOfSignal (port : PortId) (lane : Lane)
  /-- FIRST_VALID_BEACON (R66). -/
  | firstValidBeacon (link : LinkId)
  /-- QUIET_BEACON (R83). -/
  | quietBeacon (link : LinkId)
  /-- MAP_OUTCOME (R98). -/
  | mapOutcome (link : LinkId)
  /-- MAP_FINDING (R77). -/
  | mapFinding (link : LinkId)
  /-- IDENT_RECEIVED (R67). -/
  | identReceived (link : LinkId)
  /-- TRAIN_READY_RECEIVED (R69). -/
  | trainReadyReceived (link : LinkId)
  /-- TRAINED_RECEIVED (R70). -/
  | trainedReceived (link : LinkId)
  /-- QUAL_READY_RECEIVED (R123). -/
  | qualReadyReceived (link : LinkId)
  /-- QUAL_RESULT_RECEIVED (R123). -/
  | qualResultReceived (link : LinkId)
  /-- REQUAL_RECEIVED (R86). -/
  | requalReceived (link : LinkId)
  /-- KEEPALIVE_RECEIVED (R85). -/
  | keepaliveReceived (link : LinkId)
  /-- BYE_RECEIVED (R81). -/
  | byeReceived (link : LinkId)
  /-- PAGE_ERROR_REPORT (R68). -/
  | pageErrorReport (link : LinkId)
  /-- ECHO_REQ_DUE (R105). -/
  | echoReqDue (link : LinkId)
  /-- ECHO_REPLY_RECEIVED (R106). -/
  | echoReplyReceived (link : LinkId)
  /-- ECHO_REPLY_TIMER_EXPIRY of one sample (R106). -/
  | echoReplyTimerExpiry (link : LinkId) (sample : Fin 3)
  /-- LENGTH_RESULT (R69). -/
  | lengthResult (link : LinkId)
  /-- MARKER_TX (R101). -/
  | markerTx (link : LinkId)
  /-- MARKER_DETECTED on a physical lane of a port, at a time in UI from the link's entry to TRAIN (R102). -/
  | markerDetected (port : PortId) (lane : Lane) (time : Nat)
  /-- SKEW_MEASUREMENT_END (R102). -/
  | skewMeasurementEnd (link : LinkId)
  /-- SKEW_RESULT (R70). -/
  | skewResult (link : LinkId)
  /-- ENGINE_REQUEST of a link (R113). -/
  | engineRequest (link : LinkId)
  /-- SELF_CHECK_REQUEST, the oldest on its way (R114). -/
  | selfCheckRequest
  /-- ENGINE_DEPARTURE of a link (R116). -/
  | engineDeparture (link : LinkId)
  /-- ENGINE_GRANT taken by a link's sequencer (R119). -/
  | engineGrant (link : LinkId)
  /-- START_BLOCK_RECEIVED on a lane of an engine's run (R121). -/
  | startBlockReceived (engine : EngineId) (lane : Lane)
  /-- TEST_WORD_RECEIVED: the 64-bit pattern word as received (R121). -/
  | testWordReceived (engine : EngineId) (lane : Lane) (word : BitVec 64)
  /-- RUN_LIMIT_EXPIRY (R121). -/
  | runLimitExpiry (engine : EngineId)
  /-- RUN_RESULT taken by a link's sequencer (R122). -/
  | runResult (link : LinkId)
  /-- BRING_UP_EVENT (R88). -/
  | bringUpEvent (link : LinkId)
  /-- TAKE_DOWN_EVENT (R87). -/
  | takeDownEvent (link : LinkId)
  /-- REQUALIFY_EVENT (R170). -/
  | requalifyEvent (link : LinkId)
  /-- STATE_QUERY (R177). -/
  | stateQuery (link : LinkId)
  /-- LINK_ANSWER: the oldest message of the link to the Order Unit is an answer (R168). -/
  | linkAnswer (link : LinkId)
  /-- REQUALIFY_OUTCOME (R171). -/
  | requalifyOutcome (link : LinkId)
  /-- LOAD_END_REPORT (R162). -/
  | loadEndReport
  /-- LINK_EVENT: the oldest message of the link to the Order Unit is an event (R157). -/
  | linkEvent (link : LinkId)
  /-- AWAIT_TIMEOUT of the order with this take sequence (R178). -/
  | awaitTimeout (seq : Word)
  /-- DISCREPANCY_EVENT: the oldest discrepancy of the link on its way to the Log Unit (R136). -/
  | discrepancyEvent (link : LinkId)
  /-- HOLDOFF_EXPIRY (R192). -/
  | holdoffExpiry
  /-- STATUS_SPACING_END (R193). -/
  | statusSpacingEnd
  /-- UPTIME_TICK (R194). -/
  | uptimeTick
  deriving DecidableEq, Repr

end Sys2Proof
end

