-- ==== Sys2Proof/Machine/State.lean ====
section
/-! DEFINITION. The state of the part as plain data, its reset, and why a step can stop. INVENTORY.md lists
each field with its rule. -/

namespace Sys2Proof.Machine

/-- Why the machine stops: it never does, since the spec gives every command an effect in every state. -/
inductive Fault where
  deriving DecidableEq, Repr

/-- Why a command has no meaning. -/
inductive Refusal where
  /-- Raised by exec's arms for a row that is not modelled yet: none. Safe. -/
  | notModelled (mnemonic : String)
  deriving DecidableEq, Repr

/-- All the state of the part, the queue of commands, and the model's own outputs. -/
structure State where
  /-- The commands that wait, first in, first out. -/
  pending          : List Instr
  -- Register window and part state (R180, R181)
  part             : PartState
  resume           : Option PartState
  attn             : AttnResult
  loadResult       : LoadResult
  anchorCause      : Option AnchorCause
  anchorLo         : Word
  anchorHi         : Word
  notices          : BitVec 5
  noticeEnable     : BitVec 5
  faultAddr        : Addr
  faultKind        : FaultKind
  faultSource      : FaultSource
  multiple         : Bool
  uptime           : Word
  -- Anchor and LOADING (R182 to R187)
  anchor           : Option Anchor
  accepted         : Bool
  loading          : Option LoadStage
  anchorRead       : AnchorRead
  staleAnchorReads : Nat
  stalePlanReads   : Nat
  -- Order Unit (R150 to R152)
  posted           : List PostEntry
  postMark         : Word
  takeSeq          : Word
  contexts         : List Ctx
  selfRequests     : List SelfCheck
  loadReports      : List LoadReport
  -- Plan Cache (R23, R25)
  rows             : Vector RowState 32
  planBase         : Option Addr
  load             : Option Load
  loadQueue        : List LoadReq
  -- Discrepancy Log Unit (R132, R134): one entry per record, `none` is FREE
  log              : List (Option HeldRec)
  -- Record Writer (R12 to R16, R193)
  dirty            : List LinkId
  writeQueue       : List QEntry
  writing          : Option Writing
  lastSource       : Source
  retry            : Option Source
  lastWritten      : Vector (Option LinkState) 64
  statusGen        : BitVec 16
  ordersTaken      : Word
  ordersCompleted  : Word
  droppedPosts     : Word
  statusDue        : Bool
  spacing          : Timer
  -- Notice Unit (R192)
  coalesce         : Nat
  holdoff          : Timer
  -- Links, Page Processor, engines
  links            : Vector Link 64
  lastServed       : LinkId
  engines          : Vector Engine 16
  -- The model's own fields (assumption log 5, 10, 22)
  seedsDrawn       : Nat
  messages         : Nat
  hostMem          : List Host.Cell
  deriving DecidableEq, Repr

/-- The part right after power-on or the reset pin (R189). `lastSource` and `seedsDrawn` are the model's
choices (assumption log 7, 10). -/
def State.reset : State where
  pending := []
  part := .idle
  resume := none
  attn := .none
  loadResult := .none
  anchorCause := none
  anchorLo := 0
  anchorHi := 0
  notices := 0
  noticeEnable := 0
  faultAddr := 0
  faultKind := .none
  faultSource := .none
  multiple := false
  uptime := 0
  anchor := none
  accepted := false
  loading := none
  anchorRead := .idle
  staleAnchorReads := 0
  stalePlanReads := 0
  posted := []
  postMark := 0
  takeSeq := 0
  contexts := []
  selfRequests := []
  loadReports := []
  rows := Bank.fill 32 .absent
  planBase := none
  load := none
  loadQueue := []
  log := []
  dirty := []
  writeQueue := []
  writing := none
  lastSource := .queue
  retry := none
  lastWritten := Bank.fill 64 none
  statusGen := 0
  ordersTaken := 0
  ordersCompleted := 0
  droppedPosts := 0
  statusDue := false
  spacing := none
  coalesce := 0
  holdoff := none
  links := Bank.of 64 (fun n => Link.fresh (if n % 2 = 0 then 8 else 0))
  lastServed := 63
  engines := Bank.fill 16 (Engine.free [])
  seedsDrawn := 0
  messages := 0
  hostMem := []

end Sys2Proof.Machine
end

