-- ==== Sys2Proof/Machine/Flags.lean ====
section
/-! DEFINITION. The notice flags, the interrupt message (R191), and what the registers of the window read
(R180, R181). -/

namespace Sys2Proof.Machine

/-- Bits of NOTICE (R180). -/
def Notice.orderDone : BitVec 5 := 1
def Notice.discrepancy : BitVec 5 := 2
def Notice.linkChange : BitVec 5 := 4
def Notice.logOverflow : BitVec 5 := 8
def Notice.busFault : BitVec 5 := 16

/-- New pending and enabled sets; a message is sent when the set of flags both pending and enabled goes from
empty to not empty (R191). -/
def State.setNotices (s : State) (flags enable : BitVec 5) : State :=
  let opens := decide (s.notices &&& s.noticeEnable = 0 ∧ flags &&& enable ≠ 0)
  { s with notices := flags, noticeEnable := enable, messages := s.messages + bit opens }

/-- A notice becomes pending; one that is pending stays so (R191). -/
def State.notify (s : State) (flag : BitVec 5) : State := s.setNotices (s.notices ||| flag) s.noticeEnable

/-- The STATE register (R181). -/
def State.stateRegister (s : State) : Word :=
  BitVec.ofNat 32 (s.part.code + 16 * ((s.resume.map PartState.code).getD 0) + 256 * s.attn.code +
    65536 * s.loadResult.code + 16777216 * ((s.anchorCause.map AnchorCause.code).getD 0))

/-- The FAULT_INFO register (R180). -/
def State.faultInfo (s : State) : Word :=
  BitVec.ofNat 32 (s.faultKind.code + 16 * s.faultSource.code + 256 * bit s.multiple)

/-- What a read of the register window gives; it changes nothing (R180). -/
def State.readRegister (s : State) (offset : Word) : Word :=
  match offset.toNat with
  | 0x00 => 0x4B132081
  | 0x08 => s.stateRegister
  | 0x10 => s.notices.setWidth 32
  | 0x14 => s.noticeEnable.setWidth 32
  | 0x18 => s.anchorLo
  | 0x1C => s.anchorHi
  | 0x20 => s.faultAddr.setWidth 32
  | 0x24 => (s.faultAddr >>> 32).setWidth 32
  | 0x28 => s.faultInfo
  | _ => 0

end Sys2Proof.Machine
end

