-- ==== Sys2Proof/Machine/Ops.lean ====
section
/-! DEFINITION. The named operations every block's commands are built from: links and rows, host memory as the
part has written it, the dirty set, the status block's due mark, the fault path, the part state. -/

namespace Sys2Proof.Machine

/-- A duration in ms as ns. -/
def msec (n : Nat) : Nat := n * 1000000

/-- A saturating counter stays at its limit (R9). -/
def satInc (limit n : Nat) : Nat := min limit (n + 1)

/-! ## Numbers of links, ports and engines (R4, R111) -/

def portOf (l : LinkId) : PortId := ⟨l.val / 2, by omega⟩

def legOf (l : LinkId) : Fin 2 := ⟨l.val % 2, by omega⟩

def linkOf (p : PortId) (leg : Fin 2) : LinkId := ⟨p.val * 2 + leg.val, by omega⟩

def engineOf (p : PortId) : EngineId := ⟨p.val / 2, by omega⟩

/-- The leg and near lane that own a physical lane under a split (R3). What a lane hears goes by the effective split of that
moment, also before the ROW_CHANGE of a change of split (assumption log 67). -/
def nearLane (sp : Split) (lane : Lane) : Fin 2 × Lane :=
  match sp with
  | .whole => (0, lane)
  | .half => if h : lane.val < 4 then (0, lane) else (1, ⟨lane.val - 4, by omega⟩)

/-- The width of a leg under a split; 0 is NOT PRESENT (R3). -/
def legWidth (sp : Split) (leg : Fin 2) : Nat :=
  match sp with
  | .whole => if leg = 0 then 8 else 0
  | .half => 4

/-! ## Rows (R3, R23) -/

/-- The effective split a row gives its port. -/
def RowState.split : RowState → Split
  | .valid r => r.split
  | .absent | .invalid _ => .whole

/-- VALID and enabled. -/
def RowState.usable : RowState → Bool
  | .valid r => r.enable
  | .absent | .invalid _ => false

/-- The kept fields of a leg, where the row is VALID and the leg in use. -/
def RowState.leg (r : RowState) (leg : Fin 2) : Option LegPlan :=
  match r with
  | .valid r => if leg = 0 then some r.leg0 else r.leg1
  | .absent | .invalid _ => none

/-! ## What a Link Sequencer reads from other blocks -/

/-- The uptime, the own tag (R2), the effective split (R3), the row's use, the leg fields of the Plan Cache and
the leg's class entry, at the moment of a step, and the takes whose orders are in READING then (R176). -/
structure Env where
  uptime  : Word
  reading : List Word
  ownTag  : Tag
  split   : Split
  width   : Nat
  usable  : Bool
  leg     : LegPlan
  cls     : ClassEntry
  deriving DecidableEq, Repr

/-- Present under the effective split (R4). -/
def Env.present (e : Env) : Bool := decide (e.width ≠ 0)

/-- An event to the Order Unit that happens in a step (R157, R176). -/
def Env.event (e : Env) (body : EventBody) : OrdMsg := .event ⟨body, e.uptime, e.reading⟩

/-- The expected tag, when the kind is SPECIFIC (R133). -/
def Env.expected (e : Env) : Option Tag := if e.leg.kind = .specific then e.leg.tag else none

/-- The own tag of a link (R2). -/
def State.ownTag (s : State) (l : LinkId) : Tag :=
  match s.anchor with
  | none => Tag.no
  | some a => ⟨a.chassis, a.slot, BitVec.ofNat 5 (portOf l).val, BitVec.ofNat 1 (legOf l).val⟩

/-- The row of a port. -/
def State.row (s : State) (p : PortId) : RowState := s.rows[p]

/-- The effective split of a port (R3). -/
def State.splitOf (s : State) (p : PortId) : Split := (s.row p).split

/-- The leg fields of a link as the Plan Cache holds them. -/
def State.legPlan (s : State) (l : LinkId) : LegPlan :=
  ((s.row (portOf l)).leg (legOf l)).getD (Config.unreadLeg l)

/-- The class entry of a link's leg in the table in force (R127). -/
def State.classOf (s : State) (l : LinkId) : ClassEntry :=
  match s.anchor with
  | none => Config.unreadClass
  | some a => a.classes[(s.legPlan l).cls]

/-- The takes whose orders are in READING (R151). -/
def State.readingTakes (s : State) : List Word :=
  s.contexts.filterMap fun c => match c.phase with
    | .reading _ => some c.seq
    | .active .. | .closing .. => none

/-- What the sequencer of a link reads now. -/
def State.env (s : State) (l : LinkId) : Env where
  uptime := s.uptime
  reading := s.readingTakes
  ownTag := s.ownTag l
  split := s.splitOf (portOf l)
  width := legWidth (s.splitOf (portOf l)) (legOf l)
  usable := (s.row (portOf l)).usable
  leg := s.legPlan l
  cls := s.classOf l

/-! ## Host memory as the part has written it -/

/-- The byte the part last wrote at an address; none where it has written none (assumption log 5). -/
def Memory.get (m : List Host.Cell) (a : Nat) : Option Byte :=
  match m with
  | [] => none
  | (k, b) :: m => if k = a then some b else Memory.get m a

/-- One byte written, keeping the addresses strictly rising. -/
def Memory.put (m : List Host.Cell) (a : Nat) (b : Byte) : List Host.Cell :=
  match m with
  | [] => [(a, b)]
  | (k, c) :: m =>
    if a < k then (a, b) :: (k, c) :: m
    else if a = k then (a, b) :: m
    else (k, c) :: Memory.put m a b

/-- Bytes written at rising addresses. -/
def Memory.write (m : List Host.Cell) (a : Nat) (bs : List Byte) : List Host.Cell :=
  match bs with
  | [] => m
  | b :: bs => Memory.write (Memory.put m a b) (a + 1) bs

/-- The canonical form: addresses strictly rising. -/
def Memory.wf (m : List Host.Cell) : Bool :=
  match m with
  | [] => true
  | [_] => true
  | (a, _) :: (b, c) :: m => decide (a < b) && Memory.wf ((b, c) :: m)

/-- A write step lands. -/
def State.land (s : State) (w : WStep) : State := { s with hostMem := Memory.write s.hostMem w.addr w.bytes }

/-- Bytes wholly inside the result window of the anchor in effect (R182, R190). -/
def State.inWindow (s : State) (addr size : Nat) : Bool :=
  match s.anchor with
  | none => false
  | some a => decide (a.winLow.toNat ≤ addr ∧ addr + size ≤ a.winHigh.toNat)

/-! ## Write queue and status block (R15, R193) -/

/-- An entry joins the write queue at its tail (R15). -/
def State.pushEntry (s : State) (q : QEntry) : State := { s with writeQueue := s.writeQueue ++ [q] }

/-- The head of the write queue is being written. -/
def State.headBegun (s : State) : Bool :=
  match s.writing with
  | some (.queue _) => true
  | some (.record ..) | some (.finishing ..) | none => false

def QKind.isStatus : QKind → Bool
  | .status _ => true
  | .taken | .result | .done .. | .watch | .alloc | .collapse | .release | .clear => false

/-- A status block entry that has not begun is in the queue (R193). -/
def State.statusWaiting (s : State) : Bool :=
  (if s.headBegun then s.writeQueue.drop 1 else s.writeQueue).any fun q => q.kind.isStatus

/-- A status block entry is queued, unless no anchor has been accepted since the last START or one waits
(R193). -/
def State.queueStatus (s : State) : State :=
  if s.accepted ∧ ¬s.statusWaiting then
    { s.pushEntry ⟨.status .plain, []⟩ with spacing := some (msec 10) }
  else s

/-- A marked status entry is queued; where one waits already, it takes the mark in its place and stands for it, since R193
has at most one wait (R184, R185; DESIGN CHOICE, unsafe, assumption log 68). -/
def State.queueMarked (s : State) (mark : StatusMark) : State :=
  if s.statusWaiting then
    let remark := fun (q : QEntry) => if q.kind.isStatus then { q with kind := .status mark } else q
    { s with writeQueue :=
        if s.headBegun then s.writeQueue.take 1 ++ (s.writeQueue.drop 1).map remark else s.writeQueue.map remark }
  else { s.pushEntry ⟨.status mark, []⟩ with spacing := some (msec 10) }

/-- A field of the status block other than the part state and the uptime has changed (R193). -/
def State.statusChange (s : State) : State :=
  if s.accepted ∧ s.part ≠ .idle then
    if s.spacing.isNone then { s with statusDue := true }.queueStatus else { s with statusDue := true }
  else s

/-- A change of part state queues a status block entry at once (R193). -/
def State.changePart (s : State) (p : PartState) : State := { s with part := p }.queueStatus

/-! ## Links -/

def State.link (s : State) (l : LinkId) : Link := s.links[l]

/-- A link enters the dirty set at its tail; in IDLE it does not (R14). -/
def State.markDirty (s : State) (l : LinkId) : State :=
  if s.part = .idle ∨ l ∈ s.dirty then s else { s with dirty := s.dirty ++ [l] }

/-- What a link keeps is replaced, with no other effect: for fields that are not of its record. -/
def State.putLink (s : State) (l : LinkId) (lk : Link) : State := { s with links := s.links.set l lk }

/-- A step of a link: a change of its record marks it dirty (R14), a change of its state changes the status
block's link counts (R193). -/
def State.onLink (s : State) (l : LinkId) (f : Env → Link → Link) : State :=
  let old := s.link l
  let new := f (s.env l) old
  let s := s.putLink l new
  let s := if new.record = old.record then s else s.markDirty l
  if new.record.state = old.record.state then s else s.statusChange

/-- Events handed to a sequencer join its inbox. -/
def State.send (s : State) (l : LinkId) (ev : SeqEvent) : State :=
  s.putLink l { s.link l with inbox := (s.link l).inbox ++ [ev] }

/-- The oldest event of a sequencer's inbox is taken from it. -/
def State.dropEvent (s : State) (l : LinkId) : State :=
  s.putLink l { s.link l with inbox := (s.link l).inbox.drop 1 }

def State.engine (s : State) (e : EngineId) : Engine := s.engines[e]

def State.putEngine (s : State) (e : EngineId) (en : Engine) : State := { s with engines := s.engines.set e en }

/-! ## Part states and the fault path (R185, R187, R190) -/

/-- Entry to IDLE by the end of QUIESCING: the dirty set is emptied, the status block is not due (R185, R193). -/
def State.enterIdle (s : State) : State :=
  { s with part := .idle, dirty := [], statusDue := false, spacing := none }

/-- QUIESCING waits until every context is free and the write queue empty; then the IDLE status write is
queued, or IDLE is entered where no anchor has been accepted (R185). -/
def State.checkQuiesce (s : State) : State :=
  if s.part = .quiescing ∧ s.contexts = [] ∧ s.writeQueue = [] then
    if s.accepted then s.queueMarked .idle else s.enterIdle
  else s

/-- LOADING enters RUNNING when the 64 record writes, the clearing writes and the status write of stage 3 have
landed (R184). -/
def State.checkRunning (s : State) : State :=
  match s.loading with
  | some (.completing [] true) =>
    if s.part = .loading ∧ s.writeQueue.all (fun q => q.kind ≠ .clear) then
      { s with loading := none }.changePart .running
    else s
  | some (.completing ..) | some .anchor | some .plan | some .reconciling | none => s

/-- A bus fault enters FAULTED from LOADING, RUNNING and QUIESCING (R187). -/
def State.enterFaulted (s : State) : State :=
  match s.part with
  | .loading | .running | .quiescing => { s with resume := some s.part }.changePart .faulted
  | .idle | .faulted => s

/-- The fault path captures a fault, or sets MULTIPLE where BUS_FAULT is pending (R190). -/
def State.captureFault (s : State) (addr : Nat) (kind : FaultKind) (source : FaultSource) : State :=
  if s.notices &&& Notice.busFault = 0 then
    { s with faultAddr := BitVec.ofNat 64 addr, faultKind := kind, faultSource := source,
             multiple := false }.notify Notice.busFault
  else { s with multiple := true }

/-- The fault path takes a fault (R187, R190). -/
def State.takeFault (s : State) (addr : Nat) (kind : FaultKind) (source : FaultSource) : State :=
  (s.captureFault addr kind source).enterFaulted

end Sys2Proof.Machine
end

