-- ==== Sys2Proof/Machine/Operands.lean ====
section
/-! DEFINITION. What the part reads from host memory, checked and clamped: the anchor block (R127, R182, R183), a
plan row (R18 to R22), an order slot with its parameters (R153, R161 to R179, R198). -/

namespace Sys2Proof.Machine

/-- An address field of 8 bytes (R195). -/
def addrAt (bs : List Byte) (off : Nat) : Addr := BitVec.ofNat 64 (field bs off 8)

/-! ## The anchor block -/

/-- A class entry at an offset of the anchor block, clamped (R127). -/
def classEntryAt (bs : List Byte) (off : Nat) : ClassEntry :=
  let pass := min (field bs off 2) 480
  { pass := pass
    marginal := min (field bs (off + 2) 2) pass
    units := min (max (field bs (off + 4) 2) 1) 16384
    skewLimit := field bs (off + 6) 1
    burst := max (field bs (off + 8) 2) 1 }

/-- The anchor block as read, with the clamps of R183 applied. -/
def anchorAt (bs : List Byte) : Anchor where
  orderBase := addrAt bs 0
  planBase := addrAt bs 8
  recordBase := addrAt bs 16
  logBase := addrAt bs 24
  statusBase := addrAt bs 32
  winLow := addrAt bs 40
  winHigh := addrAt bs 48
  slotCount := min (field bs 56 1) 64
  logLength := min (max (field bs 57 1) 4) 32
  trigger := min (max (field bs 58 1) 1) 64
  holdoff := field bs 59 1
  chassis := BitVec.ofNat 12 (field bs 60 2)
  slot := BitVec.ofNat 3 (field bs 62 1)
  classes := Bank.of 4 fun i => classEntryAt bs (64 + 12 * i)

/-- The five regions with their sizes (R183, check REGION). -/
def Anchor.regions (a : Anchor) : List (Addr × Nat) :=
  [(a.orderBase, a.slotCount * 128), (a.planBase, 2048), (a.recordBase, 6144), (a.logBase, a.logLength * 48),
    (a.statusBase, 64)]

/-- A region starts at a multiple of 64 and lies wholly inside the result window. -/
def Anchor.regionOk (a : Anchor) (r : Addr × Nat) : Bool :=
  decide (r.1.toNat % 64 = 0 ∧ a.winLow.toNat ≤ r.1.toNat ∧ r.1.toNat + r.2 ≤ a.winHigh.toNat)

/-- The checks of R183 that are made on the data, in their order; the first that fails gives the cause. -/
def judgeAnchor (bs : List Byte) : Except AnchorCause Anchor :=
  let a := anchorAt bs
  if a.chassis = 0 then .error .chassis
  else if 7 < field bs 62 1 then .error .slot
  else if a.winHigh.toNat ≤ a.winLow.toNat then .error .window
  else if field bs 56 1 = 0 then .error .slotCount
  else if a.regions.all a.regionOk then .ok a
  else .error .region

/-! ## Plan rows -/

/-- The offset of a leg's block of fields in a row (section 11.4). -/
def legOffset (leg : Fin 2) : Nat := 4 + 28 * leg.val

/-- Check BAD_FIELD of a leg (R21). -/
def legFieldBad (bs : List Byte) (leg : Fin 2) : Bool :=
  let o := legOffset leg
  (expectKindOf (field bs o 1)).isNone || (strictnessOf (field bs (o + 1) 1)).isNone ||
    (remapOf (field bs (o + 2) 1)).isNone

/-- Check BAD_CLASS of a leg (R21). -/
def legClassBad (bs : List Byte) (leg : Fin 2) : Bool := decide (3 < field bs (legOffset leg + 3) 1)

/-- The expected tag of a leg as read. -/
def legTagAt (bs : List Byte) (leg : Fin 2) : Tag := Tag.unpack (BitVec.ofNat 32 (field bs (legOffset leg + 8) 4))

/-- Check BAD_TAG of a leg (R21). -/
def legTagBad (bs : List Byte) (leg : Fin 2) : Bool :=
  decide (expectKindOf (field bs (legOffset leg) 1) = some .specific) && !(legTagAt bs leg).named

/-- The kept fields of a leg, clamped (R22). The defaults stand where BAD_FIELD or BAD_CLASS has refused the
row. -/
def legPlanAt (bs : List Byte) (leg : Fin 2) : LegPlan :=
  let o := legOffset leg
  let kind := (expectKindOf (field bs o 1)).getD .none
  { kind := kind
    tag := if kind = .specific then some (legTagAt bs leg) else none
    length := if boolAt bs (o + 6) then some (min (field bs (o + 12) 2) 4095, min (field bs (o + 14) 2) 4095)
              else none
    cls := (finOf 4 (field bs (o + 3) 1)).getD 0
    strict := (strictnessOf (field bs (o + 1) 1)).getD .report
    remap := (remapOf (field bs (o + 2) 1)).getD .allow
    retryLimit := min (field bs (o + 4) 1) 7
    priority := min (field bs (o + 5) 1) 7 }

/-- The legs in use under a split, leg 0 first (R21). -/
def legsInUse (sp : Split) : List (Fin 2) :=
  match sp with
  | .whole => [0]
  | .half => [0, 1]

/-- The head and tail revisions of a row differ (R20). -/
def rowTorn (bs : List Byte) : Bool := decide (field bs 0 1 ≠ field bs 63 1)

/-- The value of a row read whole (R21, R22). -/
def rowValue (bs : List Byte) : RowState :=
  match splitOf (field bs 2 1) with
  | none => .invalid .badSplit
  | some sp =>
    let legs := legsInUse sp
    if legs.any (legFieldBad bs) then .invalid .badField
    else if legs.any (legClassBad bs) then .invalid .badClass
    else if legs.any (legTagBad bs) then .invalid .badTag
    else .valid ⟨boolAt bs 1, sp, legPlanAt bs 0, if sp = .half then some (legPlanAt bs 1) else none⟩

/-! ## Order slots -/

/-- The scope of a REFRESH (R34, R165). -/
def scopeOf (code index : Nat) : Option Scope :=
  match code with
  | 1 => (finOf 64 index).map .link
  | 2 => (finOf 32 index).map .port
  | 3 => (finOf 16 index).map .pair
  | 4 => some .all
  | _ => none

/-- A field of a LOCATE pattern: ANY by its marker, a value below its bound, or out of range (R174). -/
def locateField (any bound w n : Nat) : Option (Option (BitVec w)) :=
  if n = any then some none else if n < bound then some (some (BitVec.ofNat w n)) else none

/-- A links mask that is not zero (R161). -/
def maskAt (bs : List Byte) : Option Addr := if addrAt bs 16 = 0 then none else some (addrAt bs 16)

/-- The flag named for a kind is bit 0 of the flags (R198). -/
def slotFlag (bs : List Byte) : Bool := decide (field bs 6 2 % 2 = 1)

/-- LOCATE's parameters; a chassis of 0 is out of range (R174). -/
def locateAt (bs : List Byte) : Option Order := do
  let c ← locateField 0xFFFF 4096 12 (field bs 16 2)
  let sl ← locateField 0xFF 8 3 (field bs 18 1)
  let p ← locateField 0xFF 32 5 (field bs 19 1)
  let l ← locateField 0xFF 2 1 (field bs 20 1)
  if field bs 16 2 = 0 then none else some (.locate ⟨c, sl, p, l, slotFlag bs⟩)

/-- WATCH's parameters (R175). -/
def watchAt (bs : List Byte) : Option Order := do
  let mask ← maskAt bs
  let kinds := field bs 34 1
  let count := field bs 32 2
  if kinds % 8 = 0 ∨ field bs 24 8 % 16 ≠ 0 ∨ count = 0 ∨ 1024 < count then none
  else some (.watch mask ⟨kinds % 2 == 1, kinds / 2 % 2 == 1, kinds / 4 % 2 == 1⟩ (addrAt bs 24) count)

/-- AWAIT's parameters: bits 8..0 of the state set, a timeout of 0 taken as 1 (R177). -/
def awaitAt (bs : List Byte) : Option Order := do
  let mask ← maskAt bs
  let states := BitVec.ofNat 9 (field bs 24 2)
  if states = 0 then none else some (.await mask states (max (field bs 26 2) 1) (slotFlag bs))

/-- ADOPT_PLAN's base: a multiple of 64 with its 2048 bytes inside the result window (R163). -/
def State.adoptAt (s : State) (bs : List Byte) : Option Order :=
  let base := addrAt bs 16
  if base.toNat % 64 = 0 ∧ s.inWindow base.toNat 2048 then some (.adoptPlan base) else none

/-- SELF_CHECK's parameters (R172). -/
def selfCheckAt (bs : List Byte) : Option Order := do
  let port ← finOf 32 (field bs 16 1)
  let units := field bs 18 2
  let threshold := field bs 20 2
  if units = 0 ∨ 16384 < units ∨ 480 < threshold then none else some (.selfCheck port units threshold)

/-- The order of a slot, or none where its kind or a parameter is out of its range or set (R153, R161). -/
def State.orderAt (s : State) (bs : List Byte) : Option Order :=
  match field bs 4 1 with
  | 1 => s.adoptAt bs
  | 2 => (scopeOf (field bs 16 1) (field bs 17 1)).map .refresh
  | 3 => (maskAt bs).map .bringUp
  | 4 => (maskAt bs).map .takeDown
  | 5 => (finOf 64 (field bs 16 1)).map .requalify
  | 6 => selfCheckAt bs
  | 7 => locateAt bs
  | 8 => watchAt bs
  | 9 => awaitAt bs
  | 10 => some (.fence (slotFlag bs))
  | _ => none

/-- A destination array not wholly inside the result window (R153, R175). -/
def State.destinationBad (s : State) (o : Order) : Bool :=
  match o with
  | .watch _ _ base count => !s.inWindow base.toNat (16 * count)
  | .adoptPlan _ | .refresh _ | .bringUp _ | .takeDown _ | .requalify _ | .selfCheck .. | .locate _ | .await ..
  | .fence _ => false

/-- The fate of an order by the checks of R153. -/
inductive Fate where
  | drop
  | refuse (status : Status)
  | run (order : Order)
  deriving DecidableEq, Repr

/-- The checks of R153, in their order, on the 128 bytes of a slot whose POST had a priority. -/
def State.fateOf (s : State) (bs : List Byte) (prio : Nat) : Fate :=
  if field bs 0 1 ≠ 1 then .drop
  else
    match s.orderAt bs with
    | none => .refuse .badOrder
    | some o =>
      if field bs 5 1 ≠ prio then .refuse .badOrder
      else if s.destinationBad o then .refuse .badRegion
      else .run o

/-- The kind code of a slot is that of a standing order (R151). -/
def slotStanding (bs : List Byte) : Bool := decide (field bs 4 1 = 8 ∨ field bs 4 1 = 9)

end Sys2Proof.Machine
end

