-- ==== Sys2Proof/Machine/Orders.lean ====
section
/-! DEFINITION. The Order Unit (R145 to R179): contexts and their completion, the choice of a take, the start of
each kind, link events, answers, RECALL and STOP. -/

namespace Sys2Proof.Machine

/-! ## Contexts (R151) -/

/-- The order in flight of a take sequence. -/
def State.ctx? (s : State) (seq : Word) : Option Ctx := s.contexts.find? fun c => decide (c.seq = seq)

/-- A context enters a phase. -/
def State.setPhase (s : State) (seq : Word) (ph : Phase) : State :=
  { s with contexts := s.contexts.map fun c => if c.seq = seq then { c with phase := ph } else c }

/-- A context becomes free. -/
def State.freeCtx (s : State) (seq : Word) : State :=
  { s with contexts := s.contexts.filter fun c => !decide (c.seq = seq) }

/-- The slot count in effect (R149, R183). -/
def State.slotCount (s : State) : Nat := (s.anchor.map (·.slotCount)).getD 0

/-- The address of a slot (R145). -/
def State.slotAddr (s : State) (slot : Nat) : Nat := ((s.anchor.map (·.orderBase.toNat)).getD 0) + 128 * slot

/-! ## The three writes of a slot (R146, R198) -/

/-- The TAKEN write: the take sequence, then the state word TAKEN with status 0. -/
def State.takenEntry (s : State) (c : Ctx) : QEntry :=
  ⟨.taken, [⟨s.slotAddr c.slot + 8, leBytes 4 c.seq.toNat⟩, ⟨s.slotAddr c.slot, slotWord 2 0⟩]⟩

/-- The result write. -/
def State.resultEntry (s : State) (slot : Nat) (bs : List Byte) : QEntry :=
  ⟨.result, [⟨s.slotAddr slot + 64, resultArea bs⟩]⟩

/-- The DONE write. -/
def State.doneEntry (s : State) (slot : Nat) (ref : Option Word) (notify : Bool) (st : Status) : QEntry :=
  ⟨.done slot ref notify, [⟨s.slotAddr slot, slotWord 3 st.code⟩]⟩

/-- The DONE write of the order is that of a FENCE with NOTIFY (R179). -/
def Order.notify : Order → Bool
  | .fence n => n
  | .adoptPlan _ | .refresh _ | .bringUp _ | .takeDown _ | .requalify _ | .selfCheck .. | .locate _ | .watch ..
  | .await .. => false

/-- An ACTIVE order ends: its result write and its DONE write are queued, and its context enters CLOSING
(R155). Nothing happens where the take has no ACTIVE order. -/
def State.endOrder (s : State) (seq : Word) (st : Status) (result : List Byte) : State :=
  match s.ctx? seq with
  | some ⟨slot, _, _, .active order _⟩ =>
    ((s.pushEntry (s.resultEntry slot result)).pushEntry (s.doneEntry slot (some seq) order.notify st)).setPhase seq
      (.closing st order.standing)
  | some ⟨_, _, _, .reading _⟩ | some ⟨_, _, _, .closing ..⟩ | none => s

/-! ## FENCE (R179) -/

/-- One FENCE context no longer waits for a take; with none left it ends. -/
def State.fenceLeaves (s : State) (fence gone : Word) : State :=
  match s.ctx? fence with
  | some ⟨_, _, _, .active order (.fencing left awaited)⟩ =>
    let rest := left.filter fun q => !decide (q = gone)
    if rest.isEmpty then s.endOrder fence .ok (byte1 awaited)
    else s.setPhase fence (.active order (.fencing rest awaited))
  | _ => s

/-- Every FENCE stops waiting for a take: its DONE word has landed, it was dropped, or it became ACTIVE as a
standing order. FENCEs that end together end in the order of their takes (assumption log 46). -/
def State.releaseFences (s : State) (gone : Word) : State :=
  (s.contexts.map (·.seq)).foldl (fun s f => s.fenceLeaves f gone) s

/-- One take is earlier than another: behind it by less than 2^31 (R152). -/
def earlier (a b : Word) : Bool := decide (a ≠ b ∧ (b - a).toNat < 2 ^ 31)

/-- A FENCE awaits a context whose order is non-standing, or still in READING (R179). -/
def Ctx.fenceable (c : Ctx) : Bool :=
  match c.phase with
  | .reading _ => true
  | .active o _ => !o.standing
  | .closing _ standing => !standing

/-- The takes a FENCE records at its start. -/
def State.fenceRecords (s : State) (seq : Word) : List Word :=
  (s.contexts.filter fun c => earlier c.seq seq && c.fenceable).map (·.seq)

/-! ## LOCATE (R174) -/

/-- A field of the pattern is ANY or equals the tag's field. -/
def patMatches {w : Nat} (p : Option (BitVec w)) (v : BitVec w) : Bool :=
  match p with
  | none => true
  | some x => decide (x = v)

/-- A link matches a pattern, by its record: LIVE goes by the state that the record shows, also of the old leg-1 link of a
port made WHOLE before its ROW_CHANGE (R174; DESIGN CHOICE, unsafe, assumption log 63). -/
def LocatePat.hits (p : LocatePat) (r : LinkRecord) : Bool :=
  match r.neighbour with
  | none => false
  | some n =>
    patMatches p.chassis n.tag.chassis && patMatches p.slot n.tag.slot && patMatches p.port n.tag.port &&
      patMatches p.leg n.tag.leg && (!p.live || r.state.conversing)

/-- The matching links in rising number. -/
def State.locate (s : State) (p : LocatePat) : List LinkId := (allBelow 64).filter fun l => p.hits (s.link l).record

/-- LOCATE's result. -/
def locateResult (hits : List LinkId) : List Byte :=
  byte1 hits.length ++ byte1 (min hits.length 8) ++ byte1 (bit (decide (8 < hits.length))) ++ zeros 1 ++
    padTo 8 0 (hits.map fun l => BitVec.ofNat 8 l.val)

/-! ## Masks -/

/-- The links of a mask in rising number. -/
def maskLinks (m : Addr) : List LinkId := (allBelow 64).filter fun l => m.getLsbD l.val

/-- A mask with the bits of some links. -/
def linksMask (ls : List LinkId) : Addr := ls.foldl (fun m l => m ||| (1 : Addr) <<< l.val) 0

/-- A mask as a result field. -/
def maskBytes (m : Addr) : List Byte := leBytes 8 m.toNat

/-- One event to the sequencer of each of some links (R162). -/
def State.sendAll (s : State) (ls : List LinkId) (ev : SeqEvent) : State := ls.foldl (fun s l => s.send l ev) s

/-! ## Standing orders (R175 to R178) -/

/-- AWAIT's view as it counts: a link that is NOT PRESENT counts as OFF until its port changes split (R177), also where
its record still shows another state before its ROW_CHANGE (assumption log 63). -/
def State.awaitView (s : State) (view : List (LinkId × LinkState)) : List (LinkId × LinkState) :=
  view.map fun v => (v.1, if (s.env v.1).present then v.2 else .off)

/-- AWAIT's satisfied mask: the links whose view is in the state set. -/
def satisfied (states : BitVec 9) (view : List (LinkId × LinkState)) : Addr :=
  linksMask ((view.filter fun v => states.getLsbD v.2.code).map (·.1))

/-- AWAIT's condition (R177). -/
def awaitHolds (mask : Addr) (any : Bool) (m : Addr) : Bool := if any then decide (m ≠ 0) else decide (m = mask)

/-- The result of a standing order as it stands. -/
def State.standingResult (s : State) (o : Order) (p : Progress) : List Byte :=
  match o, p with
  | .watch .., .written n => leBytes 2 n
  | .await _ states _ _, .viewing _ view _ => maskBytes (satisfied states (s.awaitView view))
  | _, _ => []

/-- A standing order that is ACTIVE ends with a status and its result as its entry gives. -/
def State.endStanding (s : State) (seq : Word) (st : Status) : State :=
  match s.ctx? seq with
  | some ⟨_, _, _, .active o p⟩ => if o.standing then s.endOrder seq st (s.standingResult o p) else s
  | _ => s

/-- A view with a link's state replaced. -/
def viewSet (view : List (LinkId × LinkState)) (l : LinkId) (st : LinkState) : List (LinkId × LinkState) :=
  view.filter (fun v => !decide (v.1 = l)) ++ [(l, st)]

/-- AWAIT with a new view: the condition is checked once every link has answered (R178). -/
def State.awaitCheck (s : State) (seq : Word) (o : Order) (waiting : List LinkId)
    (view : List (LinkId × LinkState)) (timer : Timer) : State :=
  let s := s.setPhase seq (.active o (.viewing waiting view timer))
  match o with
  | .await mask states _ any =>
    let m := satisfied states (s.awaitView view)
    if waiting.isEmpty ∧ awaitHolds mask any m then s.endOrder seq .ok (maskBytes m) else s
  | _ => s

/-- The kind of an event is in a WATCH's set. -/
def WatchSet.selects (k : WatchSet) : EventBody → Bool
  | .state .. => k.state
  | .discrepancy .. => k.discrepancy
  | .verdict .. => k.verdict

/-- A link event offered to one context (R157, R176, R178): the order is ACTIVE when the event arrives, and a WATCH was
not still in READING when the event happened (assumption log 48). -/
def State.offer (s : State) (l : LinkId) (ev : LinkEvt) (seq : Word) : State :=
  match s.ctx? seq with
  | some ⟨_, _, _, .active (.watch mask kinds base count) (.written n)⟩ =>
    if mask.getLsbD l.val ∧ kinds.selects ev.body ∧ seq ∉ ev.reading then
      let s := s.pushEntry ⟨.watch, [⟨base.toNat + 16 * n, watchBytes l ev⟩]⟩
      let s := s.setPhase seq (.active (.watch mask kinds base count) (.written (n + 1)))
      if n + 1 = count then s.endOrder seq .ok (leBytes 2 (n + 1)) else s
    else s
  | some ⟨_, _, _, .active (.await mask states tmo any) (.viewing waiting view timer)⟩ =>
    match ev.body with
    | .state entered _ =>
      if mask.getLsbD l.val ∧ l ∉ waiting then
        s.awaitCheck seq (.await mask states tmo any) waiting (viewSet view l entered) timer
      else s
    | .discrepancy .. | .verdict .. => s
  | _ => s

/-- A link event offered to every ACTIVE standing order (R157), in the order of their takes (assumption log 46). -/
def State.offerAll (s : State) (l : LinkId) (ev : LinkEvt) : State :=
  (s.contexts.map (·.seq)).foldl (fun s q => s.offer l ev q) s

/-! ## The start of an order (R153, R158, R161 to R179) -/

/-- The part quiesces, also while a fault holds it (assumption log 33). -/
def State.quiescing (s : State) : Bool :=
  decide (s.part = .quiescing ∨ (s.part = .faulted ∧ s.resume = some .quiescing))

/-- The present links of a port. -/
def State.presentLinks (s : State) (p : PortId) : List LinkId :=
  [linkOf p 0, linkOf p 1].filter fun l => (s.env l).present

/-- The progress an order begins with. -/
def State.beginProgress (s : State) (seq : Word) (o : Order) : Progress :=
  match o with
  | .adoptPlan _ | .refresh _ | .requalify _ | .locate _ => .atWork
  | .bringUp mask => .asking (maskLinks mask) 0
  | .takeDown mask => .asking (maskLinks mask) 0
  | .selfCheck port _ _ => .asking (s.presentLinks port) 0
  | .watch .. => .written 0
  | .await mask _ tmo _ => .viewing (maskLinks mask) [] (some (msec tmo))
  | .fence _ => .fencing (s.fenceRecords seq) (s.fenceRecords seq).length

/-- The work an ACTIVE order hands over, or its end where its work is done at once. -/
def State.handOver (s : State) (seq : Word) (prio : Nat) (o : Order) : State :=
  match o with
  | .adoptPlan base => { s with loadQueue := s.loadQueue ++ [.adopt seq base] }
  | .refresh scope => { s with loadQueue := s.loadQueue ++ [.refresh seq scope] }
  | .bringUp mask => s.sendAll (maskLinks mask) (.bringUp seq)
  | .takeDown mask => s.sendAll (maskLinks mask) (.takeDown seq)
  | .requalify l => s.send l (.requalify seq prio)
  | .selfCheck port _ _ => s.sendAll (s.presentLinks port) (.stateQuery seq)
  | .locate p => s.endOrder seq .ok (locateResult (s.locate p))
  | .watch .. => if s.quiescing then s.endStanding seq .stopped else s
  | .await mask _ _ _ =>
    if s.quiescing then s.endStanding seq .stopped else s.sendAll (maskLinks mask) (.stateQuery seq)
  | .fence _ => if (s.fenceRecords seq).isEmpty then s.endOrder seq .ok (byte1 0) else s

/-- A take that is not dropped is counted (R153, R193). The status block entry that this queues stands after the
TAKEN entry and before what the order itself queues (assumption log 40). -/
def State.countTaken (s : State) : State := { s with ordersTaken := s.ordersTaken + 1 }.statusChange

/-- An order becomes ACTIVE and starts (R153, case 4). A standing order that ends at once in QUIESCING queues its result
and its DONE before a FENCE that it releases queues its own (assumption log 40). -/
def State.activate (s : State) (c : Ctx) (o : Order) : State :=
  let s := (s.pushEntry (s.takenEntry c)).countTaken
  let s := s.setPhase c.seq (.active o (s.beginProgress c.seq o))
  let s := s.handOver c.seq c.prio o
  if o.standing then s.releaseFences c.seq else s

/-- An order refused at its take: TAKEN and then DONE, with no result (R153, cases 2 and 3). The DONE word of a
refused FENCE with NOTIFY is coalesced like any other (assumption log 49). -/
def State.refuseTake (s : State) (c : Ctx) (st : Status) (standing : Bool) : State :=
  let s := (s.pushEntry (s.takenEntry c)).countTaken
  (s.pushEntry (s.doneEntry c.slot (some c.seq) false st)).setPhase c.seq (.closing st standing)

/-- A dropped take (R153, case 1). -/
def State.dropTake (s : State) (c : Ctx) : State :=
  (({ s.freeCtx c.seq with droppedPosts := s.droppedPosts + 1 }.statusChange).releaseFences c.seq).checkQuiesce

/-- A slot read returns with its data (R153). -/
def State.slotData (s : State) (c : Ctx) (bs : List Byte) : State :=
  match s.fateOf bs c.prio with
  | .drop => s.dropTake c
  | .refuse st => s.refuseTake c st (slotStanding bs)
  | .run o => s.activate c o

/-- A slot read returns with a memory error (R153). -/
def State.slotFault (s : State) (c : Ctx) : State :=
  (s.setPhase c.seq (.reading true)).takeFault (s.slotAddr c.slot) .readError .slotRead

/-! ## The take (R152) -/

/-- A post mark is lower than another (R150). -/
def markLower (a b : Word) : Bool := earlier a b

/-- One pending entry goes before another at a take: higher priority, then lower mark (R152). -/
def PostEntry.before (a b : PostEntry) : Bool :=
  decide (b.prio < a.prio) || (decide (a.prio = b.prio) && markLower a.mark b.mark)

/-- The entry that the take chooses. -/
def bestPost : List PostEntry → Option PostEntry
  | [] => none
  | p :: ps =>
    match bestPost ps with
    | none => some p
    | some q => if q.before p then some q else some p

/-- A slot stands in the pending set or in a context (R149). -/
def State.slotKnown (s : State) (slot : Nat) : Bool :=
  s.posted.any (fun p => decide (p.slot = slot)) || s.contexts.any fun c => decide (c.slot = slot)

/-- A pending entry leaves the set. -/
def State.unpost (s : State) (slot : Nat) : State :=
  { s with posted := s.posted.filter fun p => !decide (p.slot = slot) }

/-- The take (R152): the chosen entry enters a free context in READING with the next take sequence. -/
def State.takeOne (s : State) : State :=
  match bestPost s.posted with
  | some p =>
    if s.part = .running ∧ s.contexts.length < 16 then
      { s.unpost p.slot with
        takeSeq := s.takeSeq + 1, contexts := s.contexts ++ [⟨p.slot, p.prio, s.takeSeq + 1, .reading false⟩] }
    else s
  | none => s

/-! ## The attention word (R147 to R149, R154) -/

/-- LOADING before its anchor block is accepted, also while a fault of it is outstanding (R148, R187). -/
def State.beforeAccept (s : State) : Bool :=
  !s.accepted && decide (s.part = .loading ∨ (s.part = .faulted ∧ s.resume = some .loading))

/-- The answer to an attention word (R147). -/
def State.answerAttn (s : State) (r : AttnResult) : State := { s with attn := r }

/-- A POST taken by R148 (R149). -/
def State.postTaken (s : State) (slot prio : Nat) : State :=
  if s.slotCount ≤ slot then s.answerAttn .badIndex
  else if s.slotKnown slot then s.answerAttn .duplicate
  else
    { s with posted := s.posted ++ [(⟨slot, prio, s.postMark + 1⟩ : PostEntry)],
             postMark := s.postMark + 1, attn := .accepted }

/-- A RECALL taken by R148 (R154). -/
def State.recallTaken (s : State) (slot : Nat) : State :=
  if s.slotCount ≤ slot then s.answerAttn .badIndex
  else if s.posted.any fun p => decide (p.slot = slot) then
    ((s.unpost slot).pushEntry (s.doneEntry slot none false .recalled)).answerAttn .accepted
  else
    match s.contexts.find? fun c => decide (c.slot = slot) with
    | some ⟨_, _, seq, .active o _⟩ =>
      if o.standing then (s.endStanding seq .recalled).answerAttn .accepted else s.answerAttn .tooLate
    | some ⟨_, _, _, .reading _⟩ | some ⟨_, _, _, .closing ..⟩ => s.answerAttn .tooLate
    | none => s.answerAttn .notFound

/-! ## Entry to QUIESCING (R158) -/

/-- The pending entries in rising post mark. -/
def sortPosts : List PostEntry → List PostEntry
  | [] => []
  | p :: ps =>
    let rec insert (p : PostEntry) : List PostEntry → List PostEntry
      | [] => [p]
      | q :: qs => if markLower q.mark p.mark then q :: insert p qs else p :: q :: qs
    insert p (sortPosts ps)

/-- The pending entries end STOPPED in rising post mark, and every ACTIVE standing order ends STOPPED (R158), in the
order of their takes (assumption log 46). -/
def State.stopOrders (s : State) : State :=
  let s := (sortPosts s.posted).foldl (fun s p => s.pushEntry (s.doneEntry p.slot none false .stopped))
    { s with posted := [] }
  (s.contexts.map (·.seq)).foldl (fun s q => s.endStanding q .stopped) s

/-! ## Answers and reports (R162, R168 to R173, R177) -/

/-- BRING_UP and TAKE_DOWN: one more link has answered; with all in, the order ends (R168, R169). -/
def State.actedAnswer (s : State) (seq : Word) (o : Order) (mask : Addr) (waiting : List LinkId) (acted : Addr)
    (l : LinkId) (yes : Bool) (partly : Bool) : State :=
  let acted := if yes then acted ||| (1 : Addr) <<< l.val else acted
  let waiting := waiting.filter fun w => !decide (w = l)
  if waiting.isEmpty then
    s.endOrder seq (if partly ∧ acted ≠ mask then .partialDone else .ok) (maskBytes acted)
  else s.setPhase seq (.active o (.asking waiting acted))

/-- SELF_CHECK: a link's state before the engine is asked (R172). -/
def State.selfCheckAnswer (s : State) (seq : Word) (prio : Nat) (port : PortId) (units threshold : Nat)
    (waiting : List LinkId) (l : LinkId) (st : LinkState) : State :=
  if st = .off ∨ st = .held then
    let waiting := waiting.filter fun w => !decide (w = l)
    if waiting.isEmpty then
      { s.setPhase seq (.active (.selfCheck port units threshold) .atWork) with
        selfRequests := s.selfRequests ++ [⟨seq, port, units, threshold, prio⟩] }
    else s.setPhase seq (.active (.selfCheck port units threshold) (.asking waiting 0))
  else s.endOrder seq .notPermitted []

/-- REQUALIFY refused: the state at start, and everything else 0 (R170). -/
def requalRefused (st : LinkState) : List Byte := byte1 st.code

/-- The lane LMI present bits (section 11.6). -/
def presentBits (xs : List (Option Nat)) : Nat :=
  match xs with
  | [] => 0
  | x :: xs => bit x.isSome + 2 * presentBits xs

/-- REQUALIFY's result at the departure (R171). -/
def requalResult (q : QualSnapshot) : List Byte :=
  byte1 LinkState.up.code ++ byte1 q.lmis.length ++ optCode Verdict.code q.localV ++ optCode Verdict.code q.peerV ++
    optCode Verdict.code q.finalV ++ byte1 (bit q.leg.isSome) ++ byte1 (presentBits q.lmis) ++ zeros 1 ++
    leBytes 2 (q.leg.getD 0) ++ (padTo 8 [0, 0] (q.lmis.map fun v => leBytes 2 (v.getD 0))).flatten

/-- A sequencer's answer reaches its context; one for a context that has ended is discarded (R162). -/
def State.answerArrives (s : State) (l : LinkId) (seq : Word) (a : Answer) : State :=
  match s.ctx? seq with
  | some ⟨_, prio, _, .active o p⟩ =>
    match o, p, a with
    | .bringUp mask, .asking waiting acted, .acted yes => s.actedAnswer seq o mask waiting acted l yes true
    | .takeDown mask, .asking waiting acted, .acted yes => s.actedAnswer seq o mask waiting acted l yes false
    | .requalify _, .atWork, .state st => s.endOrder seq .notPermitted (requalRefused st)
    | .selfCheck port units threshold, .asking waiting _, .state st =>
      s.selfCheckAnswer seq prio port units threshold waiting l st
    | .await .., .viewing waiting view timer, .state st =>
      s.awaitCheck seq o (waiting.filter fun w => !decide (w = l)) (viewSet view l st) timer
    | _, _, _ => s
  | _ => s

/-- A REQUALIFY's link has left QUALIFY (R171). -/
def State.requalArrives (s : State) (seq : Word) (q : QualSnapshot) : State :=
  match s.ctx? seq with
  | some ⟨_, _, _, .active (.requalify _) _⟩ =>
    s.endOrder seq (if q.finalV.isSome then .ok else .linkLost) (requalResult q)
  | _ => s

/-- REFRESH's result (R165). -/
def refreshResult (sc : Scope) (changed bad : Nat) : List Byte :=
  byte1 sc.codes.1 ++ byte1 sc.codes.2 ++ byte1 changed ++ byte1 bad

/-- A load's end reaches its context (R162 to R166). -/
def State.loadReport (s : State) (r : LoadReport) : State :=
  let st := if r.applied then Status.ok else Status.busFault
  match s.ctx? r.ref with
  | some ⟨_, _, _, .active (.adoptPlan _) _⟩ => s.endOrder r.ref st (byte1 r.changed ++ byte1 r.bad)
  | some ⟨_, _, _, .active (.refresh sc) _⟩ => s.endOrder r.ref st (refreshResult (r.scope.getD sc) r.changed r.bad)
  | _ => s

/-- SELF_CHECK's result at the end of its run (R173). -/
def selfCheckResult (units threshold : Nat) (lmis : List Nat) : List Byte :=
  let flags := lmis.map fun v => decide (threshold ≤ v)
  leBytes 2 units ++ byte1 (flags.filter id).length ++ byte1 (presentBits (flags.map fun b => if b then some 0 else none)) ++
    (padTo 8 [0, 0] (lmis.map (leBytes 2))).flatten

/-! ## The landing of a DONE word (R155, R192) -/

/-- The trigger and the holdoff in ns of the anchor in effect (R192). -/
def State.trigger (s : State) : Nat := (s.anchor.map (·.trigger)).getD 1
def State.holdoffTime (s : State) : Nat := ((s.anchor.map (·.holdoff)).getD 0) * 100000

/-- ORDER_DONE becomes pending and the count returns to 0. -/
def State.announceDone (s : State) : State := { s with coalesce := 0 }.notify Notice.orderDone

/-- The coalescing of one landing (R192). -/
def State.coalesceOne (s : State) (notify : Bool) : State :=
  if notify ∨ s.trigger ≤ s.coalesce + 1 then { s with holdoff := none }.announceDone
  else if s.holdoffTime = 0 then s.announceDone
  else { s with coalesce := s.coalesce + 1, holdoff := some s.holdoffTime }

/-- A DONE word lands: orders completed, its context free, FENCEs released, ORDER_DONE coalesced. -/
def State.doneLands (s : State) (ref : Option Word) (notify : Bool) : State :=
  let s := { s with ordersCompleted := s.ordersCompleted + 1 }.statusChange
  let s := match ref with
    | some seq => (s.freeCtx seq).releaseFences seq
    | none => s
  s.coalesceOne notify

end Sys2Proof.Machine
end

