-- ==== Sys2Proof/Machine/Margin.lean ====
section
/-! DEFINITION. The margin arithmetic and the verdicts (R120, R125, R126, R128). -/

namespace Sys2Proof.Machine

/-- The quarter-log of an integer of 1 or more: 16 p + f, with p the place of the highest set bit and f the
four-bit fraction of the remainder (R125). -/
def quarterLog (x : Nat) : Nat :=
  let p := Nat.log2 x
  let r := x - 2 ^ p
  16 * p + (if 4 ≤ p then r / 2 ^ (p - 4) else r * 2 ^ (4 - p))

/-- The lane LMI of a window and an error count (R126). -/
def laneLmi (window errors : Nat) : Nat := quarterLog window - quarterLog (errors + 1)

/-- The leg LMI, the least of the lane LMIs (R126). -/
def legLmiOf : List Nat → Nat
  | [] => 0
  | [x] => x
  | x :: y :: xs => min x (legLmiOf (y :: xs))

/-- The test window in words of U window units (R120). -/
def windowWords (units : Nat) : Nat := units * 65536

/-- The run limit of a window, W words of 2.5 ns and 4 ms, in ns (R121). -/
def runLimitOf (window : Nat) : Nat := window * 5 / 2 + 4000000

/-- The local verdict of a leg LMI and a skew span against a class entry (R128). -/
def localVerdict (c : ClassEntry) (leg span : Nat) : Verdict :=
  if c.pass ≤ leg ∧ span ≤ c.skewLimit then .pass
  else if c.marginal ≤ leg then .marginal
  else .fail

/-- The length X of an answered sample in dm: RTT less H less 40, clamped into 0..4095 (R107). -/
def sampleLength (rtt hold : Nat) : Nat := min (rtt - hold - 40) 4095

/-- The middle one of three. -/
def median (a b c : Nat) : Nat := max (min a b) (min (max a b) c)

/-- The measured length of the X values of the ANSWERED samples (R108). -/
def measuredLength : List Nat → Option Nat
  | [] => none
  | [x] => some x
  | [x, y] => some (min x y)
  | x :: y :: z :: _ => some (median x y z)

/-- The length check fails when measured and expected length differ by more than the tolerance (R109). -/
def lengthFails (measured expected tolerance : Nat) : Bool :=
  decide (tolerance < max measured expected - min measured expected)

end Sys2Proof.Machine
end

