-- ==== Sys2Proof/Machine/PageLink.lean ====
section
/-! DEFINITION. The Page Link and the units it feeds, link by link (R38 to R59, R90 to R98, R105 to R108): the
transmit queue, BYE copies, flow control, the choice at a page boundary, the routing of an arrived page, the
lane observations and the map checks, the echo samples. -/

namespace Sys2Proof.Machine

/-! ## Echo samples (R105 to R108) -/

/-- A sample that is WAITING or OUTSTANDING. -/
def Sample.isOpen : Sample → Bool
  | .waiting | .outstanding .. => true
  | .answered .. | .lost => false

/-- The X of an ANSWERED sample. -/
def Sample.x? : Sample → Option Nat
  | .answered _ _ x => some x
  | .waiting | .outstanding .. | .lost => none

/-- The measurement ends when no sample is open, and its length is reported to the sequencer (R108). -/
def Link.echoSettle (lk : Link) : Link :=
  if lk.echo.running ∧ lk.echo.samples.toList.all (fun x => !x.isOpen) then
    { lk with echo := { lk.echo with running := false, timer := none },
              inbox := lk.inbox ++ [.lengthResult (measuredLength (lk.echo.samples.toList.filterMap (·.x?)))] }
  else lk

/-- A sample takes a new state while the measurement runs. -/
def Link.setSample (lk : Link) (n : Fin 3) (x : Sample) : Link :=
  { lk with echo := { lk.echo with samples := lk.echo.samples.set n x } }

/-- A request discarded from the queue unsent makes its sample LOST (R105). -/
def Link.discarded (lk : Link) (it : Option TxItem) : Link :=
  match it with
  | some (.echoReq n) =>
    if lk.echo.running ∧ lk.echo.samples[n] = .waiting then (lk.setSample n .lost).echoSettle else lk
  | _ => lk

/-- A request that has finished transmission makes its sample OUTSTANDING, with a reply timer of 1 ms (R105). -/
def Link.echoSent (lk : Link) (n : Fin 3) (now : Nat) : Link :=
  if lk.echo.running ∧ lk.echo.samples[n] = .waiting then lk.setSample n (.outstanding now (msec 1)) else lk

/-- A reply is matched by its sequence number (R106, R107). -/
def Link.echoMatch (lk : Link) (r : EchoReply) : Link :=
  match lk.echo.running, lk.echo.samples[r.seq] with
  | true, .outstanding sent _ =>
    let rtt := r.stamp - sent
    if rtt ≤ 65535 then (lk.setSample r.seq (.answered rtt r.hold (sampleLength rtt r.hold))).echoSettle
    else (lk.setSample r.seq .lost).echoSettle
  | _, _ => lk

/-- The reply timer of an OUTSTANDING sample expires (R106). -/
def Link.echoExpire (lk : Link) (n : Fin 3) : Link :=
  match lk.echo.running, lk.echo.samples[n] with
  | true, .outstanding .. => (lk.setSample n .lost).echoSettle
  | _, _ => lk

/-! ## The transmit queue (R49, R51) -/

/-- A page due on lane 0 joins the queue: BEACON and KEEPALIVE are skipped while the transmitter is held, and a
full queue discards its oldest page (R51). -/
def Link.queuePage (lk : Link) (it : TxItem) : Link :=
  if lk.heldBy.isSome ∧ (it = .beacon ∨ it = .keepalive) then lk
  else if lk.tx.length < 4 then { lk with tx := lk.tx ++ [it] }
  else { lk with tx := lk.tx.drop 1 ++ [it] }.discarded lk.tx.head?

/-- A waiting page is a BYE copy. -/
def TxItem.isBye : TxItem → Bool
  | .bye _ => true
  | _ => false

/-- BYE: the queue is emptied, earlier copies are cancelled, one copy is queued and two are to follow (R49). -/
def Link.sendBye (lk : Link) (r : ByeReason) : Link :=
  { lk with tx := [], bye := some ⟨r, 2⟩, byeTimer := some (msec 1) }.queuePage (.bye r)

/-- BYE(reason) if a conversation exists (R60). -/
def Link.byeIfConversing (lk : Link) (r : ByeReason) : Link :=
  if lk.record.state.conversing then lk.sendBye r else lk

/-- The BYE copies left unsent are cancelled (R49). -/
def Link.cancelBye (lk : Link) : Link :=
  { lk with bye := none, byeTimer := none, tx := lk.tx.filter fun it => !it.isBye }

/-- The next copy of a BYE is queued (R49). -/
def Link.byeCopy (lk : Link) : Link :=
  match lk.bye with
  | some ⟨r, n + 1⟩ =>
    { lk with bye := if n = 0 then none else some ⟨r, n⟩, byeTimer := if n = 0 then none else some (msec 1) }.queuePage
      (.bye r)
  | some ⟨_, 0⟩ | none => lk

/-- The clearing on entry to LISTEN, OFF, BACKOFF or HELD; the page in progress is finished (R58). The deskew
delays are removed at the same entries (R104). -/
def Link.clearPages (lk : Link) : Link :=
  { lk with rx := [], tx := lk.tx.filter (·.isBye), owedFlow := none, owedEcho := none, holdForce := none,
            heldBy := none, delays := none }

/-! ## Announcing (R46, R47) -/

/-- Local deskew has been applied: the record's delays are present (R47, R103). -/
def Link.deskewed (lk : Link) : Bool := allPresent lk.record.deskew

/-- QUAL_READY is announced from the grant until the local run ends (R47, R119). -/
def Link.qualReadyPages (lk : Link) : List TxItem :=
  match lk.ownSeed with
  | some seed => if lk.stage.granted ∧ lk.stage.run ≠ .ended then [.qualReady seed] else []
  | none => []

/-- QUAL_RESULT is announced from the end of the local run until the peer's is received (R47, R122). -/
def Link.qualResultPages (lk : Link) : List TxItem :=
  match lk.record.localV with
  | some v => if lk.stage.run = .ended ∧ lk.record.peerV = none then [.qualResult v (lk.record.legLmi.getD 0)] else []
  | none => []

/-- The announce pages of the state (R47). -/
def Link.announcePages (e : Env) (lk : Link) : List TxItem :=
  match lk.record.state with
  | .listen => if e.leg.kind = .none then [] else [.beacon]
  | .pairing => [.beacon, .ident]
  | .verify => .ident :: (if lk.stage.verifyPassed then [.trainReady] else [])
  | .train => if lk.deskewed then [.trained] else []
  | .qualify =>
    (if lk.stage.byRequalify ∧ ¬lk.stage.requalAnswered then [.requal] else []) ++
      lk.qualReadyPages ++ lk.qualResultPages
  | .up | .off | .backoff | .held => []

/-- The beacons of lanes other than 0 leave their lanes directly (R46). The lanes are those of the effective split at this
moment, also of a link that has not yet taken the ROW_CHANGE of a change of split (DESIGN CHOICE, unsafe, assumption log
67; of the old leg-1 link 58). -/
def Link.directBeacons (e : Env) (lk : Link) : Link :=
  if .beacon ∈ lk.announcePages e ∧ e.ownTag.named then
    let lanes := (allBelow 8).filter fun k => decide (1 ≤ k.val ∧ k.val < e.width)
    { lk with wire := lk.wire ++ lanes.map fun k => .beacon k (pageBytes e.ownTag (.beacon e.split k)) }
  else lk

/-- The announce pages are queued, and the timer runs 1 ms from now (R47). -/
def Link.announce (e : Env) (lk : Link) : Link :=
  (lk.announcePages e).foldl Link.queuePage
    ({ lk with timers := { lk.timers with announce := some (msec 1) } }.directBeacons e)

/-! ## Flow control (R53, R55) -/

/-- A store has left `n` entries in the FIFO (R55). -/
def Link.owedAfterStore (lk : Link) (n : Nat) : Option FlowPage :=
  if n = 6 then
    match lk.owedFlow with
    | some .resume => none
    | some .hold => some .hold
    | none => if lk.holdForce.isSome then none else some .hold
  else lk.owedFlow

/-- A take has left `n` entries in the FIFO (R55). With HOLD in force and a second HOLD owed, the take that leaves 2
makes RESUME owed in place of that HOLD (DESIGN CHOICE, unsafe, assumption log 60). -/
def Link.owedAfterTake (lk : Link) (n : Nat) : Option FlowPage :=
  if n = 2 ∧ lk.holdForce.isSome then some .resume
  else if n ≤ 2 ∧ lk.owedFlow = some .hold then none
  else lk.owedFlow

/-- A page is stored, or counted as an overrun at a full FIFO (R53). -/
def Link.store (lk : Link) (entry : RxEntry) : Link :=
  if lk.rx.length < 8 then
    { lk with rx := lk.rx ++ [entry], owedFlow := lk.owedAfterStore (lk.rx.length + 1) }
  else { lk with record := { lk.record with overruns := satInc 65535 lk.record.overruns } }

/-- The Page Processor takes the head entry (R54): a tagged one counts a page error and is reported, an
untagged one goes to the sequencer. -/
def Link.serve (lk : Link) : Link :=
  match lk.rx with
  | [] => lk
  | entry :: rest =>
    let taken := { lk with rx := rest, owedFlow := lk.owedAfterTake rest.length }
    match entry with
    | .tagged .. =>
      { taken with record := { taken.record with pageErrors := satInc 65535 taken.record.pageErrors },
                   inbox := taken.inbox ++ [.pageError] }
    | .untagged p => { taken with inbox := taken.inbox ++ [.page p] }

/-- The limit of HOLD in force ends it; a new HOLD is owed where the FIFO still holds 6 or more, and with fewer
nothing is sent, an owed page that has not begun included (R56). -/
def Link.holdForceEnds (lk : Link) : Link :=
  { lk with holdForce := none, owedFlow := if 6 ≤ lk.rx.length then some .hold else none }

/-- The length of the peer-silent timer in a state in which it runs (R64). -/
def silentLength : LinkState → Nat
  | .up => msec 50
  | _ => msec 8

/-- The arrival of an untagged conversation page restarts the peer-silent timer where it runs (R56, R64). -/
def Link.touchSilent (lk : Link) : Link :=
  { lk with timers := { lk.timers with peerSilent := lk.timers.peerSilent.map fun _ => silentLength lk.record.state } }

/-! ## The transmitter (R38, R50, R52) -/

/-- What a waiting page carries when it begins (R38, R42 to R45). -/
def TxItem.body (e : Env) : TxItem → PageBody
  | .beacon => .beacon e.split 0
  | .ident =>
    .ident e.split e.leg.kind e.leg.strict (e.expected.getD Tag.no) e.cls.units e.cls.burst
  | .echoReq n => .echoReq n
  | .trainReady => .trainReady
  | .trained => .trained
  | .qualReady seed => .qualReady seed
  | .qualResult v lmi => .qualResult v lmi
  | .requal => .requal
  | .keepalive => .keepalive
  | .bye r => .bye r

/-- HOLD or RESUME as a page. -/
def FlowPage.body : FlowPage → PageBody
  | .hold => .hold
  | .resume => .resume

/-- A page begins on lane 0, built now, in the form the lanes carry (R38, R39). -/
def Link.beginPage (e : Env) (lk : Link) (what : Sent) (body : PageBody) : Link :=
  { lk with sending := some ⟨what, pageBytes e.ownTag body, lk.record.state.highRate⟩ }

/-- The head of the transmit queue begins, unless the transmitter is held (R52). -/
def Link.beginQueued (e : Env) (lk : Link) : Link :=
  match lk.heldBy, lk.tx with
  | none, it :: rest => { lk with tx := rest }.beginPage e (.item it) (it.body e)
  | _, _ => lk

/-- Lane 0 sends nothing and nothing is owed or queued, so that the next thing queued makes a page boundary (R52). -/
def Link.laneIdle (lk : Link) : Bool :=
  lk.sending.isNone && lk.tx.isEmpty && lk.owedFlow.isNone && lk.owedEcho.isNone

/-- A page is queued, and on an idle lane that moment is the page boundary at which it begins (R38, R52). The model takes
this boundary in the same step only where the step may go on to empty the queue; elsewhere it is the PAGE_TX_START that
follows (DESIGN CHOICE, unsafe, assumption log 57). -/
def Link.queueAtBoundary (e : Env) (lk : Link) (it : TxItem) : Link :=
  if lk.laneIdle ∧ e.ownTag.named then (lk.queuePage it).beginQueued e else lk.queuePage it

/-- The hold time H of an owed reply that begins now (R50). -/
def EchoOwed.holdTime (o : EchoOwed) (now : Nat) : Nat := now - o.ended + Config.receiveSendPath

/-- The choice at a page boundary: an owed HOLD or RESUME, an owed ECHO_REPLY, the head of the queue (R52). A
reply whose H would exceed 65535 is not sent (R50). -/
def Link.beginNext (e : Env) (lk : Link) (now : Nat) : Link :=
  match lk.owedFlow with
  | some f => { lk with owedFlow := none }.beginPage e (.flow f) f.body
  | none =>
    match lk.owedEcho with
    | some o =>
      let lk := { lk with owedEcho := none }
      if o.holdTime now ≤ 65535 then lk.beginPage e (.echoReply o.seq) (.echoReply o.seq (o.holdTime now))
      else lk.beginQueued e
    | none => lk.beginQueued e

/-- A page boundary on lane 0: nothing is in progress; a link with no own tag sends nothing (R38, R52). A leg-1 link
that a load has left without lanes may begin a page until it takes its ROW_CHANGE, which clears its queue (R4, R25, R29;
DESIGN CHOICE, unsafe, assumption log 58). -/
def Link.txStart (e : Env) (lk : Link) (now : Nat) : Link :=
  if lk.sending.isSome ∨ ¬e.ownTag.named then lk else lk.beginNext e now

/-! ## Lane observations and the map checks (R90 to R98) -/

/-- The present observations of the lanes below a width. -/
def presentObs (obs : Vector (Option Obs) 8) (width : Nat) : List (Lane × Obs) :=
  (allBelow 8).filterMap fun i => if i.val < width then (obs[i]).map fun o => (i, o) else none

/-- The lane map and the pilot lane follow the observations (R95), over the width that the record's lists have, which
ROW_CHANGE alone changes (R29; assumption log 53). -/
def Link.followObs (lk : Link) : Link :=
  { lk with record :=
    { lk.record with
      laneMap := ((allBelow 8).take lk.record.laneMap.length).map fun i =>
        (lk.obs[i]).map fun o => ⟨o.far, o.inverted⟩,
      pilot := ((presentObs lk.obs lk.record.laneMap.length).find? fun p => p.2.far = 0).map (·.1) } }

/-- Some pair of the observations, each with its lane, meets a test. -/
def anyPair (xs : List (Lane × Obs)) (test : Lane × Obs → Lane × Obs → Bool) : Bool :=
  xs.any fun a => xs.any fun b => test a b

/-- The map checks 1 to 4: the kind of the first that fails (R96). -/
def mapFault (ownTag : Tag) (ownSplit : Split) (width : Nat) (xs : List (Lane × Obs)) : Option DiscKind :=
  if xs.any fun a => a.2.tag = ownTag then some .loopedToSelf
  else if (xs.any fun a => a.2.split ≠ ownSplit) || anyPair xs (fun a b => a.2.tag.onlyLegDiffers b.2.tag) then
    some .splitMismatch
  else if anyPair xs (fun a b => a.2.tag.moreThanLegDiffers b.2.tag) then some .mixedCable
  else if anyPair xs (fun a b => decide (a.1 ≠ b.1 ∧ a.2.far = b.2.far)) || xs.any (fun a => width ≤ a.2.far.val) then
    some .laneConflict
  else none

/-- Check 5: every near lane of the leg has an observation (R96). -/
def mapComplete (width : Nat) (xs : List (Lane × Obs)) : Bool := decide (xs.length = width)

/-- One evaluation over a set of observations, made by a change on a lane: what is reported (R96, R97). The width is
that of the effective split (assumption log 53). A finding on a lane whose observation has been cleared has no tag and
the uptime (assumption log 52). -/
def evaluateMap (e : Env) (obs : Vector (Option Obs) 8) (lane : Lane) : SeqEvent :=
  let xs := presentObs obs e.width
  match mapFault e.ownTag e.split e.width xs, obs[lane] with
  | some k, some o => .mapFinding ⟨k, lane, o.tag, o.seen⟩
  | some k, none => .mapFinding ⟨k, lane, Tag.no, e.uptime⟩
  | none, _ => .mapOutcome (mapComplete e.width xs)

/-- A report that is a finding. -/
def SeqEvent.isFinding : SeqEvent → Bool
  | .mapFinding _ => true
  | _ => false

/-- The evaluations at the entry to PAIRING: the observations are added one at a time in the order given, each
evaluated, up to the first finding (R94, R97). -/
def evaluateEntry (e : Env) (all : Vector (Option Obs) 8) :
    List Lane → Vector (Option Obs) 8 → List SeqEvent
  | [], _ => []
  | lane :: lanes, seen =>
    let seen := seen.set lane all[lane]
    let report := evaluateMap e seen lane
    if report.isFinding then [report] else report :: evaluateEntry e all lanes seen

/-- An untagged beacon reaches the Lane Discovery Unit on a near lane (R91, R92, R94). -/
def Link.beaconArrives (e : Env) (lk : Link) (lane : Lane) (o : Obs) : Link :=
  match lk.record.state with
  | .listen =>
    if e.leg.kind = .none then { lk with inbox := lk.inbox ++ [.quietBeacon lane o.tag o.seen] }
    else
      { lk with obs := lk.obs.set lane (some o),
                inbox := if (presentObs lk.obs e.width).isEmpty then lk.inbox ++ [.firstBeacon lane] else lk.inbox }
  | .pairing =>
    let changed := ((lk.obs[lane]).map fun p => { p with seen := o.seen }) ≠ some o
    let kept := { lk with obs := lk.obs.set lane (some o) }
    if changed then
      { kept.followObs with inbox := lk.inbox ++ [evaluateMap e kept.obs lane] }
    else kept
  | .off | .verify | .train | .qualify | .up | .backoff | .held => lk

/-! ## Routing of an arrived page (R41) -/

/-- An untagged page other than a beacon, on the pilot lane in PAIRING..UP (R41, R50, R57). -/
def Link.conversationArrives (lk : Link) (p : Page) (a : Arrival) : Link :=
  let lk := lk.touchSilent
  match p.body with
  | .hold => { lk with heldBy := some (msec 100) }
  | .resume => { lk with heldBy := none }
  | .echoReq n => { lk with owedEcho := some ⟨n, a.last⟩ }
  | .echoReply n h => { lk with echo := { lk.echo with replies := lk.echo.replies ++ [⟨n, h, a.first⟩] } }
  | _ => lk.store (.untagged p)

/-- The page is taken from its lane: the link converses and the lane is the pilot lane (R41). -/
def Link.onPilot (lk : Link) (lane : Lane) : Bool :=
  lk.record.state.conversing && decide (lk.record.pilot = some lane)

/-- A page's last byte has arrived on a near lane of the leg (R40, R41). -/
def Link.pageArrives (e : Env) (lk : Link) (lane : Lane) (a : Arrival) : Link :=
  if lk.record.state.quiet then lk
  else
    match judgePage a.framed a.bytes with
    | .ok ⟨sender, .beacon sp far⟩ => lk.beaconArrives e lane ⟨sender, sp, far, a.inverted, e.uptime⟩
    | .ok p => if lk.onPilot lane then lk.conversationArrives p a else lk
    | .error t => if lk.onPilot lane then lk.store (.tagged t a.bytes) else lk

/-- The receive polarity of a near lane, corrected or upright: it follows the observation, and is upright while
a self-check runs (R90, R130). A change of split makes it upright in the apply stage in every state (R93; assumption
log 54). -/
def Link.corrected (lk : Link) (lane : Lane) : Bool :=
  !lk.record.selfCheck && ((lk.obs[lane]).map (·.inverted)).getD false

/-- The core lane that an open gate sends on a near lane of the leg, toward the cable; a closed gate sends none
(R17). The lanes are those of the effective split at this moment, also of a link in UP that has not yet taken the
ROW_CHANGE of a change of split, and none for an old leg-1 link (DESIGN CHOICE, unsafe, assumption log 67). -/
def Link.cableSource (e : Env) (lk : Link) (near : Lane) : Option Lane :=
  if lk.gate ∧ near.val < e.width then some near else none

/-- The near lane that feeds a core lane through an open gate, with its polarity and delay (R17), by the lane map of
the record, also after a change of split has cleared the observations (R99; assumption log 54). -/
def Link.coreSource (lk : Link) (core : Lane) : Option (Lane × Bool × Nat) :=
  if lk.gate then
    ((allBelow 8).find? fun i => ((lk.record.laneMap.getD i.val none).map (·.far)) = some core).map fun i =>
      (i, ((lk.record.laneMap.getD i.val none).map (·.inverted)).getD false, (lk.delays.getD []).getD i.val 0)
  else none

end Sys2Proof.Machine
end

