-- ==== Sys2Proof/Machine/Sequencer.lean ====
section
/-! DEFINITION. The Link Sequencer, link by link: the transition of R61, discrepancies (R73), failures and
retries (R74, R75), refusals (R77, R78), the stages, restarts and reconciliation (R27 to R33, R65). -/

namespace Sys2Proof.Machine

/-! ## The transition (R61) -/

/-- What an entry to a state is given: the private flags it starts with, the length of BACKOFF, the priority of
the engine request and the order of a REQUALIFY. -/
structure Entry where
  stage   : Stage := {}
  backoff : Nat := 0
  prio    : Nat := 0
  requal  : Option Word := none

/-- A list of absent entries of the same length. -/
def absentLike {α β : Type} (xs : List (Option α)) : List (Option β) := xs.map fun _ => none

/-- The qualification fields become absent (R10). -/
def LinkRecord.clearQualification (r : LinkRecord) : LinkRecord :=
  { r with laneLmis := absentLike r.laneLmis, legLmi := none, localV := none, peerV := none, finalV := none }

/-- The observed-map fields become absent (R10). -/
def LinkRecord.clearObserved (r : LinkRecord) : LinkRecord :=
  { r with neighbour := none, farExpect := none, laneMap := absentLike r.laneMap, pilot := none, length := none,
           skewSpan := none, deskew := absentLike r.deskew }

/-- The record's part of leaving a state: exit from UP (R85), leaving HELD (R79). -/
def LinkRecord.leave (r : LinkRecord) : LinkRecord :=
  match r.state with
  | .up => { r with upSince := none, flap := satInc 255 r.flap }
  | .held => { r with exhausted := false }
  | .off | .listen | .pairing | .verify | .train | .qualify | .backoff => r

/-- The record's part of entering a state: R10 for LISTEN and QUALIFY, R72 for UP. -/
def LinkRecord.enter (r : LinkRecord) (uptime : Word) (new : LinkState) : LinkRecord :=
  match new with
  | .listen => r.clearObserved.clearQualification
  | .qualify => r.clearQualification
  | .up => { r with retries := 0, upSince := some uptime }
  | .off | .pairing | .verify | .train | .backoff | .held => r

/-- The record's part of a transition (R61). -/
def LinkRecord.move (r : LinkRecord) (uptime : Word) (new : LinkState) : LinkRecord :=
  { (r.leave.enter uptime new) with prev := r.state, state := new }

/-- The timers that run on entry to a state (R48, R63, R64, R84). The announce timer is set by `announce`. -/
def entryTimers (e : Env) (new : LinkState) (backoff : Nat) : Timers :=
  match new with
  | .listen => { presence := if e.leg.kind = .none then none else some (msec 2000) }
  | .pairing => { pairing := some (msec 200), peerSilent := some (msec 8) }
  | .verify => { verify := some (msec 50), peerSilent := some (msec 8) }
  | .train => { train := some (msec 100) }
  | .qualify => { qualifyWait := some (msec 2000) }
  | .up => { peerSilent := some (msec 50), keepalive := some (msec 10), burst := some (msec 1) }
  | .backoff => { backoff := some backoff }
  | .off | .held => {}

/-- The qualification fields a REQUALIFY reports at the departure (R171). Its lane count is the length of the lists: the
old width from the apply stage of a change of split up to its ROW_CHANGE (DESIGN CHOICE, unsafe, assumption log 53). -/
def LinkRecord.snapshot (r : LinkRecord) : QualSnapshot := ⟨r.laneLmis, r.legLmi, r.localV, r.peerV, r.finalV⟩

/-- The messages of leaving QUALIFY: the departure to the engine (R116), the report to a REQUALIFY's context
(R171), which precedes the STATE event of the transition and follows the VERDICT event (assumption log 15). -/
def Link.leaveQualify (lk : Link) : Link :=
  if lk.record.state = .qualify then
    { lk with toEngine := lk.toEngine ++ [.departure],
              toOrder := match lk.requalRef with
                | some ref => lk.toOrder ++ [.requalDone ref lk.record.snapshot]
                | none => lk.toOrder,
              requalRef := none }
  else lk

/-- The burst limit in force: the lower of the class's and the peer's (R84). -/
def Link.burstLimitNow (e : Env) (lk : Link) : Nat :=
  match lk.peerBurst with
  | some b => min e.cls.burst b
  | none => e.cls.burst

/-- The measurements of a transition: echo samples live in VERIFY (R105, R108), the skew measurement in TRAIN
(R102, R104), observations are cleared at LISTEN (R93), the burst monitor starts at UP (R84). A reply that has been
handed to the Deskew and Echo Unit and not yet taken stays with it over every transition (R106, R108; DESIGN CHOICE,
unsafe, assumption log 61). -/
def Link.moveUnits (e : Env) (lk : Link) (new : LinkState) : Link :=
  let lk := { lk with
    echo := if new = .verify then ⟨true, Bank.fill 3 .waiting, 1, some (msec 1), lk.echo.replies⟩
            else ⟨false, Bank.fill 3 .lost, 3, none, lk.echo.replies⟩,
    skew := if new = .train then .gap 0 else .idle }
  match new with
  | .listen => { lk with obs := Bank.fill 8 none, peerUnits := none, peerBurst := none }
  | .up => { lk with burstCount := 0, burstLimit := lk.burstLimitNow e }
  | .off | .pairing | .verify | .train | .qualify | .backoff | .held => lk

/-- The Page Link's part of a transition (R49, R58). -/
def Link.movePages (lk : Link) (new : LinkState) : Link :=
  if new.clears then lk.clearPages
  else if new = .pairing then lk.cancelBye
  else lk

/-- What is sent on entry beside the announce pages: one KEEPALIVE at UP (R48), ECHO_REQ 0 at VERIFY (R105), the
engine request at QUALIFY (R113). -/
def Link.entrySends (lk : Link) (new : LinkState) (en : Entry) : Link :=
  match new with
  | .up => lk.queuePage .keepalive
  | .verify => lk.queuePage (.echoReq 0)
  | .qualify => { lk with toEngine := lk.toEngine ++ [.request en.prio], requalRef := en.requal }
  | .off | .listen | .pairing | .train | .backoff | .held => lk

/-- The transition to a state, with all that R61 lists. -/
def Link.move (e : Env) (lk : Link) (new : LinkState) (en : Entry := {}) : Link :=
  let left := lk.record.state
  let lk := lk.leaveQualify
  let lk := { lk with
    record := lk.record.move e.uptime new,
    stage := en.stage,
    timers := entryTimers e new en.backoff,
    gate := decide (new = LinkState.up),
    toOrder := lk.toOrder ++ [e.event (.state new left)] }
  (((lk.movePages new).moveUnits e new).announce e).entrySends new en

/-! ## Discrepancies and failures (R73 to R78) -/

def Link.setReason (lk : Link) (r : Reason) : Link := { lk with record := { lk.record with lastReason := r } }

/-- A discrepancy goes to the Log Unit and to the Order Unit, and last reason takes its kind but for HELD_DOWN
(R6, R73, R157). `time` is the uptime, or the time seen for a finding of lane discovery; the event to the Order Unit
carries the uptime in both cases (assumption log 55). -/
def Link.raise (e : Env) (lk : Link) (kind : DiscKind) (detail : Nat) (expected observed : Option Tag)
    (time : Word) : Link :=
  let d : Discrepancy := ⟨kind, BitVec.ofNat 32 detail, expected, observed, lk.record.farExpect, time⟩
  let lk := if kind = .heldDown then lk else lk.setReason (.disc kind)
  { lk with toLog := lk.toLog ++ [d],
            toOrder := lk.toOrder ++ [e.event (.discrepancy kind d.detail)] }

/-- The neighbour's tag, where one is present. -/
def Link.neighbourTag (lk : Link) : Option Tag := lk.record.neighbour.map (·.tag)

/-- A retryable failure: BACKOFF with one more retry used, or HELD with HELD_DOWN at the limit (R74, R75), whose
event follows the transition's (assumption log 15). -/
def Link.retryable (e : Env) (lk : Link) (why : Reason) : Link :=
  let lk := lk.setReason why
  if lk.record.retries < e.leg.retryLimit then
    let n := lk.record.retries + 1
    { lk with record := { lk.record with retries := n } }.move e .backoff { backoff := msec 10 * 2 ^ (n - 1) }
  else
    let lk := lk.move e .held
    { lk with record := { lk.record with exhausted := true } }.raise e .heldDown why.code e.expected
      lk.neighbourTag e.uptime

/-- A link that was up is lost: BACKOFF for 10 ms, with no retry counted (R85). -/
def Link.lose (e : Env) (lk : Link) (why : Reason) : Link := (lk.setReason why).move e .backoff { backoff := msec 10 }

/-- The cable is refused: BYE(REFUSED) and HELD (R77, R78). -/
def Link.refuse (e : Env) (lk : Link) : Link := (lk.byeIfConversing .refused).move e .held

/-- A link whose PEER_SILENT, LINK_LOST, ... cause arrives: an exit from UP, a retryable failure in the states
of R74, nothing elsewhere. -/
def Link.failBy (e : Env) (lk : Link) (why : Reason) : Link :=
  match lk.record.state with
  | .up => lk.lose e why
  | .pairing | .verify | .train | .qualify => lk.retryable e why
  | .off | .listen | .backoff | .held => lk

/-! ## VERIFY, TRAIN, QUALIFY (R69 to R71) -/

/-- The lane-order test: the lowest near lane whose present entry is not its own lane upright (R100). -/
def laneOrderFault (map : List (Option LaneEntry)) : Option Lane :=
  (allBelow 8).find? fun i =>
    match map.getD i.val none with
    | some en => decide (en.far ≠ i) || en.inverted
    | none => false

/-- The identity check: with SPECIFIC the neighbour's tag, where present, equals the expected tag (R30, R69). -/
def Link.identityFault (e : Env) (lk : Link) : Option Tag :=
  match e.expected, lk.neighbourTag with
  | some t, some n => if n = t then none else some n
  | _, _ => none

/-- The lane order check, made with remap FORBID (R30, R69, R100). -/
def Link.orderFault (e : Env) (lk : Link) : Option Lane :=
  if e.leg.remap = .forbid then laneOrderFault lk.record.laneMap else none

/-- The length check, made with length present and a measured length (R30, R69, R109). -/
def Link.lengthFault (e : Env) (lk : Link) : Option Nat :=
  match e.leg.length, lk.record.length with
  | some (l, t), some m => if lengthFails m l t then some m else none
  | _, _ => none

/-- UNEXPECTED_NEIGHBOUR with the neighbour's tag as detail (R78, R133). -/
def Link.raiseIdentity (e : Env) (lk : Link) (n : Tag) : Link :=
  lk.raise e .unexpectedNeighbour n.pack.toNat e.expected (some n) e.uptime

/-- LANE_ORDER with the lowest failing lane as detail (R78, R133). -/
def Link.raiseOrder (e : Env) (lk : Link) (i : Lane) : Link :=
  lk.raise e .laneOrder i.val e.expected lk.neighbourTag e.uptime

/-- LENGTH with the measured length as detail (R78, R133). -/
def Link.raiseLength (e : Env) (lk : Link) (m : Nat) : Link :=
  lk.raise e .length m e.expected lk.neighbourTag e.uptime

/-- The lane order check of VERIFY, after identity (R69, R78). -/
def Link.verifyOrder (e : Env) (lk : Link) : Link :=
  match lk.orderFault e with
  | some i =>
    let lk := lk.raiseOrder e i
    if e.leg.strict = .enforce then lk.refuse e else lk
  | none => lk

/-- Entry to VERIFY with its first two checks, identity and then lane order (R69, R78). A refusal discards the pages that
the entry has queued (assumption log 57). -/
def Link.enterVerify (e : Env) (lk : Link) : Link :=
  let lk := lk.move e .verify
  match lk.identityFault e with
  | some n =>
    let lk := lk.raiseIdentity e n
    if e.leg.strict = .enforce then lk.refuse e else lk.verifyOrder e
  | none => lk.verifyOrder e

/-- VERIFY is entered when the latest map outcome is COMPLETE and the neighbour is present (R67, R98). -/
def Link.tryVerify (e : Env) (lk : Link) : Link :=
  if lk.record.state = .pairing ∧ lk.stage.mapComplete ∧ lk.record.neighbour.isSome then lk.enterVerify e else lk

/-- TRAIN is entered when the checks have passed and TRAIN_READY was sent and received (R69). -/
def Link.tryTrain (e : Env) (lk : Link) : Link :=
  if lk.record.state = .verify ∧ lk.stage.verifyPassed ∧ lk.stage.trainReadySent ∧ lk.stage.trainReadyRecv then
    lk.move e .train
  else lk

/-- QUALIFY is entered from TRAIN when TRAINED was sent and received (R70). -/
def Link.tryQualify (e : Env) (lk : Link) : Link :=
  if lk.record.state = .train ∧ lk.stage.trainedSent ∧ lk.stage.trainedRecv then
    lk.move e .qualify { prio := e.leg.priority }
  else lk

/-- The length result in VERIFY: recorded, checked, and the checks passed where it is not refused (R69, R78). -/
def Link.lengthArrives (e : Env) (lk : Link) (m : Option Nat) : Link :=
  if lk.record.state = .verify then
    let lk := match m with
      | some m => { lk with record := { lk.record with length := some m } }
      | none => lk
    let passed := fun (lk : Link) =>
      { lk with stage := { lk.stage with verifyPassed := true } }.queuePage .trainReady
    match lk.lengthFault e with
    | some m =>
      let lk := lk.raiseLength e m
      if e.leg.strict = .enforce then lk.refuse e else (passed lk).tryTrain e
    | none => (passed lk).tryTrain e
  else lk

/-- The skew outcome in TRAIN (R70); elsewhere it is discarded (R104). -/
def Link.skewArrives (e : Env) (lk : Link) (o : SkewOutcome) : Link :=
  if lk.record.state = .train then
    match o with
    | .applied span delays =>
      ({ lk with record := { lk.record with skewSpan := some span, deskew := delays.map some } }.queuePage
        .trained).tryQualify e
    | .excess span =>
      ({ lk with record := { lk.record with skewSpan := some span } }.raise e .skewExcess span e.expected
        lk.neighbourTag e.uptime).retryable e (.disc .skewExcess)
    | .missing lane =>
      (lk.raise e .laneMissing lane.val e.expected lk.neighbourTag e.uptime).retryable e (.disc .laneMissing)
  else lk

/-- The VERDICT event goes to the Order Unit (R123, R157). -/
def Link.verdictEvent (e : Env) (lk : Link) (v : Verdict) (leg : Nat) : Link :=
  { lk with toOrder := lk.toOrder ++ [e.event (.verdict v leg)] }

/-- The final verdict is acted on (R71, R123): UP, UP with QUALITY_MARGINAL, or QUALITY_FAIL with a retryable
failure. The VERDICT event follows the discrepancy and precedes the transition, in the order of the worked sequence
of section 11 (assumption log 15). -/
def Link.finalVerdict (e : Env) (lk : Link) : Link :=
  match lk.record.localV, lk.record.peerV with
  | some a, some b =>
    let v := a.worse b
    let leg := lk.record.legLmi.getD 0
    let lk := { lk with record := { lk.record with finalV := some v } }
    match v with
    | .pass => (lk.verdictEvent e v leg).move e .up
    | .marginal =>
      ((lk.raise e .qualityMarginal leg e.expected lk.neighbourTag e.uptime).verdictEvent e v leg).move e .up
    | .fail =>
      ((lk.raise e .qualityFail leg e.expected lk.neighbourTag e.uptime).verdictEvent e v leg).retryable e
        (.disc .qualityFail)
  | _, _ => lk

/-- The end of the local run reaches a sequencer whose run is RUNNING (R122). Its one QUAL_RESULT is queued at once; with
the peer verdict present it begins on an idle lane before the final verdict is acted on, since a FAIL empties the queue
and leaves the page in progress (R52, R58; assumption log 57). -/
def Link.runEnds (e : Env) (lk : Link) (lmis : List Nat) (leg : Nat) (v : Verdict) : Link :=
  if lk.record.state = .qualify ∧ lk.stage.run = .running then
    let lk := { lk with
      record := { lk.record with laneLmis := lmis.map some, legLmi := some leg, localV := some v },
      stage := { lk.stage with run := .ended } }
    if lk.record.peerV.isSome then (lk.queueAtBoundary e (.qualResult v leg)).finalVerdict e
    else { lk with timers := { lk.timers with peerResult := some (msec 500) } }.queuePage (.qualResult v leg)
  else lk

/-! ## Pages (R67, R73, R123) -/

/-- The page comes from the neighbour (R73). -/
def Link.fromNeighbour (lk : Link) (t : Tag) : Bool := decide (lk.neighbourTag = some t)

/-- The tag of the observation on the pilot lane (R67). -/
def Link.pilotTag (lk : Link) : Option Tag := lk.record.pilot.bind fun i => (lk.obs[i]).map (·.tag)

/-- The pilot lane as a detail (R133). Where a change of split has made the pilot lane absent while the IDENT waited, the
lane is a free value (assumption log 64). -/
def Link.pilotDetail (lk : Link) : Nat := (lk.record.pilot.getD Config.absentPilot).val

/-- A fatal finding: raised, BYE(REFUSED), HELD (R77). -/
def Link.fatal (e : Env) (lk : Link) (kind : DiscKind) (detail : Nat) (observed : Tag) (time : Word) : Link :=
  (lk.raise e kind detail e.expected (some observed) time).refuse e

/-- The far expectation of an accepted IDENT is taken, and checked where it becomes present or differs: a
SPECIFIC tag that is not the own tag is PEER_MISMATCH, with the peer's strictness as detail (R67, R133). -/
def Link.takeFarExpect (e : Env) (lk : Link) (kind : ExpectKind) (strict : Strictness) (tag : Tag) : Link :=
  let far : FarExpect := ⟨kind, if kind = .specific then some tag else none⟩
  let differs := lk.record.farExpect ≠ some far
  let lk := { lk with record := { lk.record with farExpect := some far } }
  if differs ∧ kind = .specific ∧ tag ≠ e.ownTag then
    lk.raise e .peerMismatch strict.code (some tag) (some e.ownTag) e.uptime
  else lk

/-- The window units and burst limit of an accepted IDENT are kept (R84, R120). -/
def Link.takePeerClass (lk : Link) (units burst : Nat) : Link :=
  { lk with peerUnits := some units, peerBurst := some burst }

/-- IDENT by state (R67, R73). In VERIFY a differing split refuses the cable before the far expectation is taken, the
order of R67 (assumption log 45). -/
def Link.identArrives (e : Env) (lk : Link) (sender : Tag) (sp : Split) (kind : ExpectKind)
    (strict : Strictness) (tag : Tag) (units burst : Nat) : Link :=
  match lk.record.state with
  | .pairing =>
    if lk.pilotTag = some sender then
      if sender = e.ownTag then lk.fatal e .loopedToSelf lk.pilotDetail sender e.uptime
      else if sp ≠ e.split then lk.fatal e .splitMismatch lk.pilotDetail sender e.uptime
      else
        let lk := lk.takePeerClass units burst
        let lk := { lk with record :=
          { lk.record with neighbour := some (lk.record.neighbour.getD ⟨sender, sp⟩) } }
        (lk.takeFarExpect e kind strict tag).tryVerify e
    else lk
  | .verify =>
    if lk.fromNeighbour sender then
      if sp ≠ e.split then lk.fatal e .splitMismatch lk.pilotDetail sender e.uptime
      else (lk.takePeerClass units burst).takeFarExpect e kind strict tag
    else lk
  | .off | .listen | .train | .qualify | .up | .backoff | .held => lk

/-- TRAIN_READY by state (R69, R70, R73). -/
def Link.trainReadyArrives (e : Env) (lk : Link) (sender : Tag) : Link :=
  if lk.fromNeighbour sender then
    match lk.record.state with
    | .verify => { lk with stage := { lk.stage with trainReadyRecv := true } }.tryTrain e
    | .train => lk.queuePage .trainReady
    | .off | .listen | .pairing | .qualify | .up | .backoff | .held => lk
  else lk

/-- TRAINED by state (R70, R73). -/
def Link.trainedArrives (e : Env) (lk : Link) (sender : Tag) : Link :=
  if lk.fromNeighbour sender then
    match lk.record.state with
    | .train => { lk with stage := { lk.stage with trainedRecv := true } }.tryQualify e
    | .qualify => lk.queuePage .trained
    | .off | .listen | .pairing | .verify | .up | .backoff | .held => lk
  else lk

/-- QUAL_READY in QUALIFY: received, and its seed is the peer seed, the latest one, in every state of the run (R118,
R119). The run starts by it only where it has not started (R119), and after the end of the run it is answered (R123). -/
def Link.qualReadyArrives (lk : Link) (sender : Tag) (seed : Word) : Link :=
  if lk.fromNeighbour sender ∧ lk.record.state = .qualify then
    let lk := { lk with
      stage := { lk.stage with requalAnswered := true, qualReadyRecv := true, peerSeed := some seed } }
    match lk.stage.run with
    | .notStarted | .running => lk
    | .ended =>
      match lk.ownSeed with
      | some own => lk.queuePage (.qualReady own)
      | none => lk
  else lk

/-- QUAL_RESULT in QUALIFY, by the run, and in UP, where it is answered (R44, R73, R123). -/
def Link.qualResultArrives (e : Env) (lk : Link) (sender : Tag) (v : Verdict) : Link :=
  if lk.fromNeighbour sender then
    match lk.record.state with
    | .qualify =>
      let lk := { lk with stage := { lk.stage with requalAnswered := true } }
      if lk.record.peerV.isSome then lk
      else
        let lk := { lk with record := { lk.record with peerV := some v } }
        if lk.stage.run = .ended then
          { lk with timers := { lk.timers with peerResult := none } }.finalVerdict e
        else lk
    | .up =>
      match lk.record.localV with
      | some own => lk.queuePage (.qualResult own (lk.record.legLmi.getD 0))
      | none => lk
    | .off | .listen | .pairing | .verify | .train | .backoff | .held => lk
  else lk

/-- REQUAL in UP takes the link to QUALIFY with the priority of its row (R86, R113). -/
def Link.requalArrives (e : Env) (lk : Link) (sender : Tag) : Link :=
  if lk.fromNeighbour sender ∧ lk.record.state = .up then lk.move e .qualify { prio := e.leg.priority } else lk

/-- KEEPALIVE in UP from another tag: NEIGHBOUR_CHANGED and BACKOFF (R85); the discrepancy's event precedes the
transition's (assumption log 15). -/
def Link.keepaliveArrives (e : Env) (lk : Link) (sender : Tag) : Link :=
  if lk.record.state = .up ∧ lk.fromNeighbour sender = false then
    (lk.raise e .neighbourChanged (satInc 255 lk.record.flap) lk.neighbourTag (some sender) e.uptime).move e
      .backoff { backoff := msec 10 }
  else lk

/-- BYE in PAIRING..UP (R73, R81): before the neighbour is present the pilot observation's tag stands for it. The
event of PEER_REFUSED precedes the transition's (assumption log 15). -/
def Link.byeArrives (e : Env) (lk : Link) (sender : Tag) (r : ByeReason) : Link :=
  let known : Bool := match lk.neighbourTag with
    | some t => decide (t = sender)
    | none => decide (lk.pilotTag = some sender)
  if lk.record.state.conversing ∧ known then
    match r with
    | .admin => (lk.setReason .peerAdmin).move e .listen
    | .plan => (lk.setReason .peerPlan).move e .listen
    | .refused =>
      (lk.raise e .peerRefused lk.record.state.code e.expected (some sender) e.uptime).move e .held
  else lk

/-- A page error reported by the Page Processor: in PAIRING the 16th is NOISY_SIDEBAND (R68). -/
def Link.pageErrorArrives (e : Env) (lk : Link) : Link :=
  if lk.record.state = .pairing then
    let n := lk.stage.tagged + 1
    let lk := { lk with stage := { lk.stage with tagged := n } }
    if 16 ≤ n then lk.retryable e .noisySideband else lk
  else lk

/-! ## The end of a transmission (R50, R56, R69, R70, R118) -/

/-- A page finishes transmission on lane 0. -/
def Link.txEnd (e : Env) (lk : Link) (now : Nat) : Link :=
  match lk.sending with
  | none => lk
  | some s =>
    let lk := { lk with sending := none }
    match s.what with
    | .flow .hold => { lk with holdForce := some (msec 100) }
    | .flow .resume => { lk with holdForce := none }
    | .echoReply _ => lk
    | .item (.echoReq n) => lk.echoSent n now
    | .item .trainReady =>
      if lk.record.state = .verify ∧ lk.stage.verifyPassed then
        { lk with stage := { lk.stage with trainReadySent := true } }.tryTrain e
      else lk
    | .item .trained =>
      if lk.record.state = .train ∧ lk.deskewed then
        { lk with stage := { lk.stage with trainedSent := true } }.tryQualify e
      else lk
    | .item (.qualReady seed) =>
      if lk.record.state = .qualify ∧ lk.stage.granted ∧ lk.ownSeed = some seed then
        { lk with stage := { lk.stage with qualReadySent := true } }
      else lk
    | .item .beacon | .item .ident | .item (.qualResult ..) | .item .requal | .item .keepalive
    | .item (.bye _) => lk

/-! ## Restarts, BRING_UP, TAKE_DOWN, self-check (R65, R87 to R89) -/

/-- The conditions of R65. -/
def Link.mayRun (e : Env) (lk : Link) : Bool :=
  e.usable && e.present && !lk.record.adminDown && !lk.record.selfCheck

/-- Retries used 0 and last reason PLAN_RESTART (R27). -/
def Link.restartMarks (lk : Link) : Link :=
  { lk with record := { lk.record with retries := 0, lastReason := .planRestart } }

/-- A restart at LISTEN (R27), with the conditions of R65 for a link in OFF and the deferral of R89. -/
def Link.restart (e : Env) (lk : Link) : Link :=
  match lk.record.state with
  | .off =>
    if e.usable ∧ e.present ∧ ¬lk.record.adminDown then
      if lk.record.selfCheck then lk.restartMarks else lk.restartMarks.move e .listen
    else lk
  | .held => if lk.record.selfCheck then lk.restartMarks.move e .off else lk.restartMarks.move e .listen
  | .listen => lk.restartMarks
  | .pairing | .verify | .train | .qualify | .up | .backoff => ((lk.byeIfConversing .plan).restartMarks).move e .listen

/-- A stop: BYE(reason) if a conversation exists, and OFF where the link is not in OFF (R28, R29, R87). -/
def Link.stop (e : Env) (lk : Link) (r : ByeReason) : Link :=
  if lk.record.state = .off then lk else (lk.byeIfConversing r).move e .off

/-- TAKE_DOWN (R87). -/
def Link.takeDown (e : Env) (lk : Link) : Link :=
  let lk := lk.stop e .admin
  { lk with record := { lk.record with adminDown := true, lastReason := .adminDown } }

/-- BRING_UP (R88). -/
def Link.bringUp (e : Env) (lk : Link) : Link :=
  let lk := { lk with record := { lk.record with adminDown := false, retries := 0 } }
  match lk.record.state with
  | .off | .held => if lk.mayRun e then lk.move e .listen else lk
  | .listen | .pairing | .verify | .train | .qualify | .up | .backoff => lk

/-- The links of a port when its self-check begins: the flag, and BYE copies cancelled (R130). -/
def Link.selfCheckBegins (lk : Link) : Link :=
  let lk := lk.cancelBye
  { lk with record := { lk.record with selfCheck := true } }

/-- The flag of a self-check that ended (R131). -/
def Link.selfCheckFlagOff (lk : Link) : Link := { lk with record := { lk.record with selfCheck := false } }

/-- After a self-check a link in OFF is restarted when the conditions of R65 hold (R89, R131). -/
def Link.afterSelfCheck (e : Env) (lk : Link) : Link :=
  if lk.record.state = .off ∧ lk.mayRun e then lk.move e .listen else lk

/-- A change of own tag: BYE(PLAN) and a restart for a link that converses (R2). -/
def Link.ownTagChanges (e : Env) (lk : Link) : Link :=
  if lk.record.state.conversing then ((lk.sendBye .plan).restartMarks).move e .listen else lk

/-! ## Reconciliation (R27 to R33) -/

/-- The split group changed (R24). -/
def RowDelta.splitChanged (d : RowDelta) : Bool := decide (d.old.split ≠ d.new.split)

/-- The leg has lanes under the row that the event brings (R3, R4). -/
def RowDelta.present (d : RowDelta) (leg : Fin 2) : Bool := decide (legWidth d.new.split leg ≠ 0)

/-- A link that a row change leaves without lanes sends nothing more: BYE copies, queue and the page in progress (R4,
R49). -/
def Link.cutOff (lk : Link) : Link := { lk.cancelBye with tx := [], sending := none }

/-- A change of split: the record's lists take the width of the leg with every entry absent, and a link that is NOT
PRESENT under the new split is cut off (R4, R29). The width is that of the effective split at this moment, also where a
second load has changed the split again, and a link that the event makes NOT PRESENT is cut off there too (assumption
log 66). The pilot lane of a link that stays in OFF is kept with the rest of its picture, also where it lies outside the
new width (assumption log 53). -/
def Link.fitWidth (e : Env) (lk : Link) (d : RowDelta) (leg : Fin 2) : Link :=
  if d.splitChanged then
    let lk := { lk with record :=
      { lk.record with laneMap := List.replicate e.width none, deskew := List.replicate e.width none,
                       laneLmis := List.replicate e.width none } }
    if e.present ∧ d.present leg then lk else lk.cutOff
  else lk

/-- A field group of a leg changed between two VALID rows (R24). -/
def RowDelta.legChanged {α : Type} [DecidableEq α] (d : RowDelta) (leg : Fin 2) (f : LegPlan → α) : Bool :=
  decide ((d.old.leg leg).map f ≠ (d.new.leg leg).map f)

/-- The fields of the policy group (R24). -/
structure PolicyGroup where
  kind   : ExpectKind
  tag    : Option Tag
  length : Option (Nat × Nat)
  strict : Strictness
  remap  : Remap
  deriving DecidableEq, Repr

/-- The policy group of a leg (R24). -/
def LegPlan.policy (p : LegPlan) : PolicyGroup := ⟨p.kind, p.tag, p.length, p.strict, p.remap⟩

/-- Re-verification: the checks that fail, in order, raised, and the kind of the first (R30). -/
def Link.reverify (e : Env) (lk : Link) : Link × Option DiscKind :=
  let (lk, k1) := match lk.identityFault e with
    | some n => (lk.raiseIdentity e n, some DiscKind.unexpectedNeighbour)
    | none => (lk, none)
  let (lk, k2) := match lk.orderFault e with
    | some i => (lk.raiseOrder e i, some DiscKind.laneOrder)
    | none => (lk, none)
  let (lk, k3) := match lk.lengthFault e with
    | some m => (lk.raiseLength e m, some DiscKind.length)
    | none => (lk, none)
  (lk, k1.or (k2.or k3))

/-- Held for a plan reason (R31). -/
def Link.heldForPlan (lk : Link) : Bool :=
  decide (lk.record.lastReason = .disc .unexpectedNeighbour ∨ lk.record.lastReason = .disc .laneOrder ∨
    lk.record.lastReason = .disc .length)

/-- A change of the expectation kind in LISTEN, from and to NONE (R31, R83). -/
def Link.listenPolicy (lk : Link) (old new : Option ExpectKind) : Link :=
  if old = new then lk
  else
    let lk := { lk with stage := { lk.stage with heard := false }, timers := { lk.timers with absence := none } }
    if new = some .none then { lk with timers := { lk.timers with presence := none } }
    else if old = some .none then { lk with timers := { lk.timers with presence := some (msec 2000) } }
    else lk

/-- A change of the policy group, by state (R31). -/
def Link.policyChanges (e : Env) (lk : Link) (old new : Option ExpectKind) : Link :=
  match lk.record.state with
  | .up =>
    if new = some .none then lk.restart e
    else
      match lk.reverify e with
      | (lk, none) => lk
      | (lk, some k) => if e.leg.strict = .enforce then (lk.setReason (.disc k)).refuse e else lk
  | .pairing | .verify | .train | .qualify => lk.restart e
  | .held =>
    if lk.heldForPlan then
      if new = some .none then lk.restart e
      else
        match lk.reverify e with
        | (lk, none) => lk.restart e
        | (lk, some k) => if e.leg.strict = .report then lk.restart e else lk.setReason (.disc k)
    else lk
  | .listen => lk.listenPolicy old new
  | .off | .backoff => lk

/-- A change of the class group, by state (R32). -/
def Link.classChanges (e : Env) (lk : Link) : Link :=
  match lk.record.state with
  | .pairing | .verify | .train | .qualify => lk.restart e
  | .off | .listen | .up | .backoff | .held => lk

/-- A lowered retry limit sets retries used down (R33). -/
def Link.limitRetries (lk : Link) (limit : Nat) : Link :=
  { lk with record := { lk.record with retries := min lk.record.retries limit } }

/-- Enabled in a row state, where the row is VALID. -/
def RowState.enabled? : RowState → Option Bool
  | .valid r => some r.enable
  | .absent | .invalid _ => none

/-- The row has become INVALID (R28): OFF, the new width, last reason; the leg-0 link raises the
discrepancy, whose event follows that of the transition (assumption log 15). -/
def Link.rowInvalid (e : Env) (lk : Link) (d : RowDelta) (leg : Fin 2) (cause : RowCause) : Link :=
  let lk := (lk.stop e .plan).fitWidth e d leg
  if leg = 0 then lk.raise e .planRowInvalid cause.code none none e.uptime
  else lk.setReason (.disc .planRowInvalid)

/-- The row is VALID and disabled (R28). -/
def Link.rowDisabled (e : Env) (lk : Link) (d : RowDelta) (leg : Fin 2) : Link :=
  if lk.record.state = .off then lk.fitWidth e d leg
  else ((lk.stop e .plan).fitWidth e d leg).setReason .planDisabled

/-- The row has become usable and enabled (R28). A link that stays in OFF keeps its last reason, a leg-1 link that the
same change makes NOT PRESENT too (R6; DESIGN CHOICE, unsafe, assumption log 19). One that is present under the event's
row and the effective split both is restarted (assumption log 66). -/
def Link.rowEnabled (e : Env) (lk : Link) (d : RowDelta) (leg : Fin 2) : Link :=
  let lk := lk.fitWidth e d leg
  if e.present ∧ d.present leg ∧ ¬lk.record.adminDown then lk.restart e else lk

/-- The first half of a change of split: OFF and the new width (R29). -/
def Link.splitStop (e : Env) (lk : Link) (d : RowDelta) (leg : Fin 2) : Link := (lk.stop e .plan).fitWidth e d leg

/-- The second half: the restart of a link that is present under the event's row and the effective split both, or
PLAN_DISABLED for one that has become NOT PRESENT (R29; assumption log 66). -/
def Link.splitStart (e : Env) (lk : Link) (d : RowDelta) (leg : Fin 2) : Link :=
  if lk.record.adminDown then lk
  else if e.present ∧ d.present leg then lk.restart e
  else lk.setReason .planDisabled

/-- The case of R27 that a row change falls under. -/
inductive RowCase where
  | invalid (cause : RowCause)
  | disabled
  | enabled
  | split
  | policy
  | cls
  | widthOnly
  | nothing
  deriving DecidableEq, Repr

/-- The first case of R27 that applies to a leg. `widthOnly` is a change of split on a row that stays
disabled (R29). -/
def RowDelta.case (d : RowDelta) (leg : Fin 2) : RowCase :=
  match d.new with
  | .invalid cause => .invalid cause
  | .absent => .nothing
  | .valid r =>
    if ¬r.enable then
      if d.old.enabled? ≠ some false then .disabled
      else if d.splitChanged then .widthOnly else .nothing
    else if d.old.enabled? ≠ some true then .enabled
    else if d.splitChanged then .split
    else if d.legChanged leg LegPlan.policy then .policy
    else if d.legChanged leg (·.cls) then .cls
    else .nothing

/-- The first half of a row change: all of every case but the restart of a change of split. The case and the two kinds
of expectation are of the event's rows, the other leg fields of the Plan Cache at this moment (R27, R31; assumption
log 17). -/
def Link.reconcile (e : Env) (lk : Link) (d : RowDelta) (leg : Fin 2) : Link :=
  match d.case leg with
  | .invalid cause => lk.rowInvalid e d leg cause
  | .disabled => lk.rowDisabled e d leg
  | .enabled => lk.rowEnabled e d leg
  | .split => lk.splitStop e d leg
  | .policy => lk.policyChanges e ((d.old.leg leg).map (·.kind)) ((d.new.leg leg).map (·.kind))
  | .cls => lk.classChanges e
  | .widthOnly => lk.fitWidth e d leg
  | .nothing => lk

/-- The second half: the restart of a change of split, and the retry limit in every case (R29, R33). The limit is that
of the event's row, also where a later load has changed it again (DESIGN CHOICE, unsafe, assumption log 17). -/
def Link.reconcileEnd (e : Env) (lk : Link) (d : RowDelta) (leg : Fin 2) : Link :=
  let lk := if d.case leg = .split then lk.splitStart e d leg else lk
  match d.new.leg leg with
  | some p => lk.limitRetries p.retryLimit
  | none => lk

end Sys2Proof.Machine
end

