-- ==== Sys2Proof/Machine/Engines.lean ====
section
/-! DEFINITION. The Lane Test Engines (R111 to R122, R130, R131): waiting lists, grants, runs and their ends,
self-checks. -/

namespace Sys2Proof.Machine

/-! ## The waiting list (R112) -/

/-- An entry joins after every entry of equal or higher priority (R112). -/
def waitInsert (w : WaitEntry) : List WaitEntry → List WaitEntry
  | [] => [w]
  | v :: vs => if v.prio < w.prio then w :: v :: vs else v :: waitInsert w vs

/-- An entry is a self-check of a port. -/
def Owner.checks (o : Owner) (p : PortId) : Bool :=
  match o with
  | .self c => decide (c.port = p)
  | .link _ => false

/-- An entry is a self-check. -/
def Owner.isSelf : Owner → Bool
  | .self _ => true
  | .link _ => false

/-! ## Seeds (R119, R121) -/

/-- A pattern generator takes a seed of 0 as 1 (R119). -/
def seedValue (w : Word) : Word := if w = 0 then 1 else w

/-- The next seed of the engines' generator; the model counts the draws (assumption log 10). -/
def State.nextSeed (s : State) : Word := seedValue (Config.seedDraw s.seedsDrawn)

/-- A seed has been drawn. -/
def State.seedDrawn (s : State) : State := { s with seedsDrawn := s.seedsDrawn + 1 }

/-! ## Grants and releases (R113, R115, R130) -/

/-- Every present link of a port is in OFF or HELD (R130). -/
def State.portQuiet (s : State) (p : PortId) : Bool :=
  (s.presentLinks p).all fun l => decide ((s.link l).record.state = .off ∨ (s.link l).record.state = .held)

/-- An engine in RUNNING with counters at 0 and every lane waiting for its start block (R121, R130). -/
def Engine.running (owner : Owner) (waiting : List WaitEntry) (seed : Word) (window : Nat) : Engine :=
  { Engine.free waiting with
    phase := .running, owner := some owner, seed := some seed, window := some window,
    runLimit := some (runLimitOf window) }

/-- A self-check's run begins: the flag on both links, BYE copies cancelled, a seed drawn (R130). Leg 0 enters the
dirty set before leg 1 (assumption log 44). -/
def State.beginSelfCheck (s : State) (e : EngineId) (c : SelfCheck) (waiting : List WaitEntry) : State :=
  let s := s.putEngine e (Engine.running (.self c) waiting s.nextSeed (windowWords c.units))
  let s := s.seedDrawn
  (s.onLink (linkOf c.port 0) fun _ lk => lk.selfCheckBegins).onLink (linkOf c.port 1) fun _ lk => lk.selfCheckBegins

/-- A link becomes owner; the grant goes to its sequencer (R113, R115). -/
def State.grantLink (s : State) (e : EngineId) (l : LinkId) (waiting : List WaitEntry) : State :=
  (s.putEngine e { Engine.free waiting with phase := .granted, owner := some (.link l) }).send l .grant

/-- A release: the head of the list is granted, and a self-check that its check refuses gives way to the next
entry; with none the engine is FREE (R115, R130). -/
def State.grantNext (s : State) (e : EngineId) : List WaitEntry → State
  | [] => s.putEngine e (Engine.free [])
  | w :: rest =>
    match w.who with
    | .link l => s.grantLink e l rest
    | .self c =>
      if s.portQuiet c.port then s.beginSelfCheck e c rest
      else (s.endOrder c.ref .notPermitted []).grantNext e rest

/-- A request reaches its engine (R113). -/
def State.engineAsk (s : State) (e : EngineId) (w : WaitEntry) : State :=
  let list := waitInsert w (s.engine e).waiting
  match (s.engine e).phase with
  | .free => s.grantNext e list
  | .granted | .running => s.putEngine e { s.engine e with waiting := list }

/-- A self-check request: refused where one of the port is owned or listed (R114). -/
def State.selfCheckAsk (s : State) (c : SelfCheck) : State :=
  let en := s.engine (engineOf c.port)
  if (en.owner.map (·.checks c.port)).getD false ∨ en.waiting.any (fun w => w.who.checks c.port) then
    s.endOrder c.ref .notPermitted []
  else s.engineAsk (engineOf c.port) ⟨.self c, c.prio⟩

/-- A link's departure reaches its engine: its entry is removed, or the engine released (R116). -/
def State.engineDeparts (s : State) (e : EngineId) (l : LinkId) : State :=
  let list := (s.engine e).waiting.filter fun w => !decide (w.who = .link l)
  if (s.engine e).owner = some (.link l) then s.grantNext e list
  else s.putEngine e { s.engine e with waiting := list }

/-! ## Runs (R119 to R122) -/

/-- The engine of a link. -/
def engineOfLink (l : LinkId) : EngineId := engineOf (portOf l)

/-- The seed of a run: the own seed where the own tag is the lower, else the peer's (R119). -/
def Link.runSeed (e : Env) (lk : Link) : Word :=
  let peerLower : Bool := match lk.neighbourTag with
    | some t => t.lower e.ownTag
    | none => false
  seedValue (if peerLower then lk.stage.peerSeed.getD 0 else lk.ownSeed.getD 0)

/-- The window units of a run: the larger of the class's and the peer's (R120). -/
def Link.runUnits (e : Env) (lk : Link) : Nat := max e.cls.units (lk.peerUnits.getD 0)

/-- The conditions of a run's start (R119). -/
def Link.runDue (lk : Link) : Bool :=
  decide (lk.record.state = .qualify ∧ lk.stage.granted ∧ lk.stage.qualReadySent ∧ lk.stage.qualReadyRecv ∧
    lk.stage.run = .notStarted)

/-- The sequencer's part of a run's start: qualify wait stopped, peer-silent timer of 8 ms, start blocks on the
lanes of the leg (R119, R121). -/
def Link.startRun (e : Env) (lk : Link) : Link :=
  { lk with
    stage := { lk.stage with run := .running },
    timers := { lk.timers with qualifyWait := none, peerSilent := some (msec 8) },
    wire := lk.wire ++ [.startBlocks (lk.runSeed e)] }

/-- The run starts where its conditions hold, and the link's engine enters RUNNING (R119). A lane whose start block
came while the engine was GRANTED keeps its place in the far end's pattern (assumption log 50). -/
def State.tryRunStart (s : State) (l : LinkId) : State :=
  let e := engineOfLink l
  let lk := s.link l
  if lk.runDue ∧ (s.engine e).owner = some (.link l) then
    let env := s.env l
    let en := Engine.running (.link l) (s.engine e).waiting (lk.runSeed env) (windowWords (lk.runUnits env))
    (s.putEngine e { en with place := (s.engine e).place }).onLink l fun env lk => lk.startRun env
  else s

/-- The grant reaches a sequencer in QUALIFY: a seed is drawn and QUAL_READY is due (R119). -/
def State.takeGrant (s : State) (l : LinkId) : State :=
  if (s.link l).record.state = .qualify then
    let seed := s.nextSeed
    (s.seedDrawn.onLink l fun _ lk =>
      { lk with stage := { lk.stage with granted := true }, ownSeed := some seed }.queuePage (.qualReady seed)).tryRunStart l
  else s

/-- The lanes a run counts: the lanes of the leg, or all 8 (R121, R130). The leg is that of the effective split at this
moment, also in a run that a change of split finds in progress (DESIGN CHOICE, unsafe, assumption log 62). -/
def State.runLanes (s : State) (o : Owner) : Nat :=
  match o with
  | .link l => (s.env l).width
  | .self _ => 8

/-- The pattern lane that a near lane is checked against: the far lane of its lane map entry, and in a self-check its own
number (R121, R130). A lane of a link's run with no lane map entry, counted after a HALF port became WHOLE and before the
ROW_CHANGE that ends the run, is checked against the pattern of its own number (DESIGN CHOICE, unsafe, assumption log
62). -/
def State.patternLane (s : State) (o : Owner) (lane : Lane) : Nat :=
  match o with
  | .link l => (((s.link l).record.laneMap.getD lane.val none).map (·.far.val)).getD lane.val
  | .self _ => lane.val

/-- The lane LMIs of a run from its window and error counts (R122, R126). -/
def Engine.lmis (en : Engine) (lanes : Nat) : List Nat :=
  (en.errors.toList.take lanes).map fun x => laneLmi (en.window.getD 0) x

/-- A link's run ends: LMIs and verdict go to its sequencer, and the engine is released (R122). The lanes are those of
the effective split at this moment (assumption log 62). -/
def State.endLinkRun (s : State) (e : EngineId) (l : LinkId) : State :=
  let env := s.env l
  let lmis := (s.engine e).lmis env.width
  let leg := legLmiOf lmis
  let v := localVerdict env.cls leg ((s.link l).record.skewSpan.getD 0)
  (s.send l (.runResult lmis leg v)).grantNext e (s.engine e).waiting

/-- The links of a port leave a self-check: the flag off, the engine released, links in OFF restarted (R131), leg 0
before leg 1 (assumption log 44). -/
def State.leaveSelfCheck (s : State) (e : EngineId) (p : PortId) (waiting : List WaitEntry) : State :=
  let s := (s.onLink (linkOf p 0) fun _ lk => lk.selfCheckFlagOff).onLink (linkOf p 1) fun _ lk => lk.selfCheckFlagOff
  let s := s.grantNext e waiting
  (s.onLink (linkOf p 0) fun env lk => lk.afterSelfCheck env).onLink (linkOf p 1) fun env lk => lk.afterSelfCheck env

/-- A self-check's run ends: its order gets the LMIs and flags (R131, R173). -/
def State.endSelfRun (s : State) (e : EngineId) (c : SelfCheck) : State :=
  let lmis := (s.engine e).lmis 8
  let waiting := (s.engine e).waiting
  (s.endOrder c.ref .ok (selfCheckResult c.units c.threshold lmis)).leaveSelfCheck e c.port waiting

/-- A run ends (R122, R131). -/
def State.endRun (s : State) (e : EngineId) : State :=
  match (s.engine e).owner with
  | some (.link l) => s.endLinkRun e l
  | some (.self c) => s.endSelfRun e c
  | none => s

/-- A lane receives the start block it waits for (R121). -/
def Engine.startLane (en : Engine) (lane : Lane) : Engine :=
  if en.place[lane] = none then { en with place := en.place.set lane (some 0) } else en

/-- A start block on a lane of the run of a granted or running engine (R121; assumption log 50). -/
def State.startBlock (s : State) (e : EngineId) (lane : Lane) : State :=
  match (s.engine e).phase, (s.engine e).owner with
  | .granted, some o | .running, some o =>
    if lane.val < s.runLanes o then s.putEngine e ((s.engine e).startLane lane) else s
  | _, _ => s

/-- One pattern word on a lane: its place in the pattern (R121). -/
def Engine.hearWord (en : Engine) (lane : Lane) (place : Nat) : Engine :=
  { en with place := en.place.set lane (some (place + 1)) }

/-- One pattern word counted on a lane: the word counter, and the error counter where it differs (R121). -/
def Engine.countWord (en : Engine) (lane : Lane) (differs : Bool) : Engine :=
  { en with
    words := en.words.set lane (en.words[lane] + 1),
    errors := if differs then en.errors.set lane (satInc 65535 en.errors[lane]) else en.errors }

/-- Every lane of the run has counted its window (R121). -/
def Engine.allCounted (en : Engine) (lanes : Nat) : Bool :=
  (en.words.toList.take lanes).all fun n => decide (en.window.getD 0 ≤ n)

/-- A pattern word counts on a lane that has not counted its window; the last word that every lane counts ends the
run (R121). -/
def State.countTestWord (s : State) (e : EngineId) (o : Owner) (seed : Word) (lane : Lane) (place : Nat)
    (word : BitVec 64) : State :=
  let en := s.engine e
  if en.words[lane] < en.window.getD 0 then
    let expected := Config.patternWord seed (s.patternLane o lane) place
    let en := (en.hearWord lane place).countWord lane (decide (word ≠ expected))
    let lanes := s.runLanes o
    let s := s.putEngine e en
    if en.allCounted lanes then s.endRun e else s
  else s

/-- A pattern word reaches a lane that has had its start block: while the engine is GRANTED it moves the lane's place
alone, in the run it counts (R121; assumption log 50). The word is what comes out of the lane's receive polarity and
deskew delay, so that neither is applied to it here (DESIGN CHOICE, unsafe, assumption log 65). -/
def State.testWord (s : State) (e : EngineId) (lane : Lane) (word : BitVec 64) : State :=
  match (s.engine e).owner, (s.engine e).place[lane] with
  | some o, some place =>
    if lane.val < s.runLanes o then
      match (s.engine e).phase, (s.engine e).seed with
      | .granted, _ => s.putEngine e ((s.engine e).hearWord lane place)
      | .running, some seed => s.countTestWord e o seed lane place word
      | .running, none | .free, _ => s
    else s
  | some _, none | none, _ => s

/-- At the run limit each lane's shortfall is added to its errors (R121). -/
def Engine.addShortfall (en : Engine) : Engine :=
  let short := fun i => en.window.getD 0 - en.words.toList.getD i 0
  { en with errors := Bank.of 8 (fun i => min 65535 (en.errors.toList.getD i 0 + short i)) }

/-- CP_RESET: self-check entries leave an engine's list, and a self-check that owns it is aborted (R117, R131). -/
def State.abortSelf (s : State) (e : EngineId) : State :=
  let list := (s.engine e).waiting.filter fun w => !w.who.isSelf
  match (s.engine e).owner with
  | some (.self c) => s.leaveSelfCheck e c.port list
  | some (.link _) | none => s.putEngine e { s.engine e with waiting := list }

end Sys2Proof.Machine
end

