-- ==== Sys2Proof/Machine/PlanCache.lean ====
section
/-! DEFINITION. The Plan Cache (R20 to R26, R34 to R37): the queue of loads, the read stage with its re-reads, the
apply stage, read faults. -/

namespace Sys2Proof.Machine

/-- The rows a scope reads, in rising number (R34). -/
def Scope.rows : Scope → List PortId
  | .link n => [portOf n]
  | .port p => [p]
  | .pair e => [⟨e.val * 2, by omega⟩, ⟨e.val * 2 + 1, by omega⟩]
  | .all => allBelow 32

/-- The scope a load asks for; ADOPT_PLAN and START read all rows (R36, R37). -/
def LoadReq.scope : LoadReq → Scope
  | .start | .adopt .. => .all
  | .refresh _ sc => sc

/-- The base a load reads from: the anchor's for START, its own for ADOPT_PLAN, the current one for REFRESH. -/
def State.loadBase (s : State) : LoadReq → Addr
  | .start => (s.anchor.map (·.planBase)).getD 0
  | .adopt _ base => base
  | .refresh .. => s.planBase.getD 0

/-- The load at the head of the queue begins, with its first read issued (R25). While the part is FAULTED, and in
IDLE, no load begins. -/
def State.beginLoad (s : State) : State :=
  match s.load, s.loadQueue with
  | none, req :: rest =>
    if s.part = .faulted ∨ s.part = .idle then s
    else { s with loadQueue := rest, load := some ⟨req, s.loadBase req, req.scope.rows, 0, [], true⟩ }
  | _, _ => s

/-- A read of the row reached is issued, unless the part is FAULTED (R25). -/
def State.readOn (s : State) (ld : Load) : State :=
  { s with load := some { ld with reading := decide (s.part ≠ .faulted) } }

/-! ## The apply stage (R24, R25, R35 to R37) -/

/-- A LINK scope widens to PORT (R35). -/
def widens (old new : RowState) : Bool :=
  match old, new with
  | .valid o, .valid n => decide (o.enable ≠ n.enable ∨ o.split ≠ n.split)
  | _, _ => true

/-- The row that a LINK scope that stays LINK leaves: the new fields of one leg only (R35). -/
def takeLeg (old new : RowState) (leg : Fin 2) : RowState :=
  match old, new with
  | .valid o, .valid n =>
    if leg = 0 then .valid { o with leg0 := n.leg0 }
    else match o.leg1 with
      | some _ => .valid { o with leg1 := n.leg1 }
      | none => .valid o
  | _, _ => old

/-- The actual scope of a load and the new value of each of its rows. -/
def State.newRows (s : State) (sc : Scope) (aside : List (PortId × RowState)) :
    Scope × List (PortId × RowState) :=
  match sc with
  | .link n =>
    match aside with
    | (p, v) :: _ =>
      if widens (s.row p) v then (.port p, [(p, v)]) else (.link n, [(p, takeLeg (s.row p) v (legOf n))])
    | [] => (.link n, [])
  | .port _ | .pair _ | .all => (sc, aside)

/-- The rows whose content changes (R24). -/
def State.changedRows (s : State) (rows : List (PortId × RowState)) : List (PortId × RowState) :=
  rows.filter fun r => !decide (s.row r.1 = r.2)

/-- A link's lane observations become absent (R93); in PAIRING its lane map and pilot lane follow them (R95).
No evaluation is made of the cleared map, and the latest outcome stays (assumption log 54). The receive polarities turn
upright with the observations also in VERIFY to UP, where R99 fixes them for the attempt: R93 is taken to win (DESIGN
CHOICE, unsafe, assumption log 54). -/
def Link.clearObs (lk : Link) : Link :=
  let lk := { lk with obs := Bank.fill 8 none }
  if lk.record.state = .pairing then lk.followObs else lk

/-- The observations of a port become absent with a change of its effective split, leg 0 before leg 1 (R93, R95;
assumption log 44). -/
def State.clearObs (s : State) (p : PortId) : State :=
  (s.onLink (linkOf p 0) fun _ lk => lk.clearObs).onLink (linkOf p 1) fun _ lk => lk.clearObs

/-- The links a changed row is handed to: both of the port, or link n for a scope LINK n (R34). -/
def Scope.links (sc : Scope) (p : PortId) : List LinkId :=
  match sc with
  | .link n => [n]
  | .port _ | .pair _ | .all => [linkOf p 0, linkOf p 1]

/-- One changed row is taken and handed over. -/
def State.applyRow (s : State) (sc : Scope) (r : PortId × RowState) : State :=
  let d : RowDelta := ⟨s.row r.1, r.2⟩
  let s := { s with rows := s.rows.set r.1 r.2 }
  let s := if d.old.split = d.new.split then s else s.clearObs r.1
  s.sendAll (sc.links r.1) (.rowChange d)

/-- A row is INVALID. -/
def RowState.bad : RowState → Bool
  | .invalid _ => true
  | .absent | .valid _ => false

/-- All 64 links enter the dirty set in rising number; those in it keep their places (R14). -/
def State.markAll (s : State) : State := (allBelow 64).foldl (fun s l => s.markDirty l) s

/-- An event is a changed row. -/
def SeqEvent.isRowChange : SeqEvent → Bool
  | .rowChange _ => true
  | _ => false

/-- Every changed row has been taken by its links. -/
def State.rowsTaken (s : State) : Bool := (allBelow 64).all fun l => !(s.link l).inbox.any SeqEvent.isRowChange

/-- The plan of LOADING has been loaded and reconciled: all 64 links enter the dirty set, and the status block entry
of stage 3 is queued, or one that waits stands for it (R14, R184; assumption log 68). -/
def State.planReconciled (s : State) : State :=
  { s.markAll with loading := some (.completing (allBelow 64) false) }.queueMarked .loading

/-- LOADING goes on from its plan stage once every changed row has been taken (R14, R184; assumption log 56). -/
def State.checkReconciled (s : State) : State :=
  if s.loading = some .reconciling ∧ s.rowsTaken then s.planReconciled else s

/-- What follows the apply stage, by the kind of load (R36, R37, R162, R184). -/
def State.loadApplied (s : State) (ld : Load) (sc : Scope) (changed bad : Nat) : State :=
  match ld.req with
  | .start => { s with planBase := some ld.base, loading := some .reconciling }.checkReconciled
  | .adopt ref base =>
    { s with planBase := some base, loadReports := s.loadReports ++ [⟨ref, true, some sc, changed, bad⟩] }
  | .refresh ref _ => { s with loadReports := s.loadReports ++ [⟨ref, true, some sc, changed, bad⟩] }

/-- The apply stage: every new value at once, then each changed row to its links, and the load ends (R25). -/
def State.applyLoad (s : State) (ld : Load) : State :=
  let (sc, rows) := s.newRows ld.req.scope ld.aside
  let changed := s.changedRows rows
  let s := { changed.foldl (fun s r => s.applyRow sc r) s with load := none }
  s.loadApplied ld sc changed.length (rows.filter fun r => r.2.bad).length

/-! ## Row reads (R20, R21, R26) -/

/-- The row reached has its value: the next is read, or the load applies. -/
def State.rowRead (s : State) (ld : Load) (p : PortId) (rest : List PortId) (v : RowState) : State :=
  let ld := { ld with todo := rest, tries := 0, aside := ld.aside ++ [(p, v)] }
  if rest.isEmpty then s.applyLoad ld else s.readOn ld

/-- A read of the row reached returns: torn, it is read again up to three reads in all (R20). -/
def State.rowData (s : State) (ld : Load) (p : PortId) (rest : List PortId) (bs : List Byte) : State :=
  if rowTorn bs then
    if ld.tries + 1 < 3 then s.readOn { ld with tries := ld.tries + 1 }
    else s.rowRead ld p rest (.invalid .torn)
  else s.rowRead ld p rest (rowValue bs)

/-- What a faulted load leaves: a START load is made again, an order's load is reported (R26, R184). -/
def State.loadFaulted (s : State) (ld : Load) : State :=
  match ld.req with
  | .start => { s with load := none, loadQueue := .start :: s.loadQueue }
  | .adopt ref _ => { s with load := none, loadReports := s.loadReports ++ [⟨ref, false, none, 0, 0⟩] }
  | .refresh ref sc => { s with load := none, loadReports := s.loadReports ++ [⟨ref, false, some sc, 0, 0⟩] }

/-- The read of a row returns with a memory error (R26). -/
def State.rowFault (s : State) (ld : Load) (p : PortId) : State :=
  (s.loadFaulted ld).takeFault (ld.base.toNat + 64 * p.val) .readError .planRead

/-- A plan row read returns. One that STOP or CP_RESET left behind is discarded (R185, R188). -/
def State.planReadReturns (s : State) (data : Option (Vector Byte 64)) : State :=
  if 0 < s.stalePlanReads then { s with stalePlanReads := s.stalePlanReads - 1 }
  else
    match s.load with
    | some ld =>
      match ld.reading, ld.todo with
      | true, p :: rest =>
        match data with
        | some bs => s.rowData ld p rest bs.toList
        | none => s.rowFault ld p
      | _, _ => s
    | none => s

/-- The load in progress is abandoned; a read outstanding is to be discarded (R25, R185, R188). -/
def State.abandonLoad (s : State) : State :=
  match s.load with
  | some ld => { s with load := none, stalePlanReads := s.stalePlanReads + bit ld.reading }
  | none => s

end Sys2Proof.Machine
end

