-- ==== Sys2Proof/Machine/LogUnit.lean ====
section
/-! DEFINITION. The Discrepancy Log Unit (R132 to R144): collapse, allocation, overflow, release, clearing, and
the writes of each. -/

namespace Sys2Proof.Machine

/-- The address of a discrepancy record (R132). -/
def State.logAddr (s : State) (n : Nat) : Nat := ((s.anchor.map (·.logBase.toNat)).getD 0) + 48 * n

/-- An entry of the held map is HELD by a link. -/
def heldBy (l : LinkId) (h : Option HeldRec) : Bool :=
  match h with
  | some h => decide (h.link = l)
  | none => false

/-- The place of the first entry that meets a test. -/
def placeOf {α : Type} (test : α → Bool) : List α → Option Nat
  | [] => none
  | x :: xs => if test x then some 0 else (placeOf test xs).map (· + 1)

/-- The held record count (R134). -/
def State.heldCount (s : State) : Nat := (s.log.filter (·.isSome)).length

/-- The held map changes and its writes are queued; the held record count is a field of the status block
(R140, R193). -/
def State.setLog (s : State) (log : List (Option HeldRec)) (writes : List QEntry) : State :=
  let t := { s with log := log, writeQueue := s.writeQueue ++ writes }
  if t.heldCount = s.heldCount then t else t.statusChange

/-- The record after a collapse (R137). -/
def HeldRec.collapse (h : HeldRec) (d : Discrepancy) : HeldRec :=
  { h with latest := d.kind, detail := d.detail, lastTime := d.time, expected := d.expected,
           observed := d.observed, far := d.far, count := satInc 255 h.count }

/-- The record of an allocation (R138). -/
def HeldRec.fill (l : LinkId) (d : Discrepancy) : HeldRec :=
  ⟨l, d.kind, d.kind, 1, d.expected, d.observed, d.far, d.detail, d.time, d.time⟩

/-- The fields of a record other than its state, as one step (R140). -/
def State.recordStep (s : State) (n : Nat) (h : HeldRec) : WStep := ⟨s.logAddr n + 4, h.body⟩

/-- The state word of a record, as one step (R140). -/
def State.logWordStep (s : State) (n : Nat) (held : Bool) : WStep := ⟨s.logAddr n, logStateWord held⟩

/-- A discrepancy folds into the record its link holds (R137). -/
def State.logCollapse (s : State) (n : Nat) (h : HeldRec) (d : Discrepancy) : State :=
  s.setLog (s.log.set n (some (h.collapse d))) [⟨.collapse, [s.recordStep n (h.collapse d)]⟩]

/-- A discrepancy takes a FREE record (R138). -/
def State.logAllocate (s : State) (n : Nat) (l : LinkId) (d : Discrepancy) : State :=
  s.setLog (s.log.set n (some (HeldRec.fill l d)))
    [⟨.alloc, [s.recordStep n (HeldRec.fill l d), s.logWordStep n true]⟩]

/-- A logged discrepancy is placed by the held map (R136, R139). -/
def State.logDiscrepancy (s : State) (l : LinkId) (d : Discrepancy) : State :=
  match placeOf (heldBy l) s.log with
  | some n =>
    match s.log.getD n none with
    | some h => s.logCollapse n h d
    | none => s
  | none =>
    match placeOf (fun h => h.isNone) s.log with
    | some n => s.logAllocate n l d
    | none => s.notify Notice.logOverflow

/-- A discrepancy reaches the unit: logged outside IDLE once an anchor of the last START is accepted (R135). -/
def State.discrepancyArrives (s : State) (l : LinkId) (d : Discrepancy) : State :=
  if s.part = .idle ∨ ¬s.accepted then s else s.logDiscrepancy l d

/-- A RELEASE that the part state takes (R142). -/
def State.releaseTaken (s : State) (n : Nat) : State :=
  match s.log.drop n with
  | [] => { s with attn := .badIndex }
  | none :: _ => { s with attn := .notFound }
  | some _ :: _ =>
    { s.setLog (s.log.set n none) [⟨.release, [s.logWordStep n false]⟩] with attn := .accepted }

/-- The clearing writes of an accepted anchor, one per record in rising index (R141). -/
def State.clearEntries (s : State) (length : Nat) : List QEntry :=
  (List.range length).map fun n => ⟨.clear, [⟨s.logAddr n, zeros 48⟩]⟩

/-- The held map is replaced, every entry FREE, and the clearing writes are queued (R141). -/
def State.clearLog (s : State) (length : Nat) : State :=
  s.setLog (List.replicate length none) (s.clearEntries length)

end Sys2Proof.Machine
end

