-- ==== Sys2Proof/Machine/Writer.lean ====
section
/-! DEFINITION. The Record Writer (R12 to R16, R140, R190, R193): the choice of a source, record writes step by
step, write queue entries, the status block, and what each landing brings about. -/

namespace Sys2Proof.Machine

/-! ## The status block (R193) -/

/-- How many links are in a state (R193). -/
def State.linkCount (s : State) (st : LinkState) : Nat :=
  ((allBelow 64).filter fun l => decide ((s.link l).record.state = st)).length

/-- The nine link states in code order (R196). -/
def linkStates : List LinkState := [.off, .listen, .pairing, .verify, .train, .qualify, .up, .backoff, .held]

/-- The part state the status block carries: IDLE in the entry that marks entry to IDLE (R185). -/
def State.statusPart (s : State) (m : StatusMark) : PartState :=
  match m with
  | .idle => .idle
  | .plain | .loading => s.part

/-- The body of the status block, offsets 2..63 (section 11.7). -/
def State.statusBody (s : State) (m : StatusMark) : List Byte :=
  byte1 (s.statusPart m).code ++ zeros 1 ++ leBytes 4 s.uptime.toNat ++ leBytes 4 s.ordersTaken.toNat ++
    leBytes 4 s.ordersCompleted.toNat ++ leBytes 4 s.droppedPosts.toNat ++ byte1 s.heldCount ++ zeros 3 ++
    (linkStates.map fun st => leBytes 2 (s.linkCount st)).flatten ++ zeros 22

/-- A write of three steps: the odd generation, the body, the even generation (R12, R193). -/
def genSteps (base : Nat) (gen : BitVec 16) (body : List Byte) : List WStep :=
  [⟨base, leBytes 2 (gen + 1).toNat⟩, ⟨base + 2, body⟩, ⟨base, leBytes 2 (gen + 2).toNat⟩]

/-- The address of the status block. -/
def State.statusAddr (s : State) : Nat := (s.anchor.map (·.statusBase.toNat)).getD 0

/-- The address of a link record (R12). -/
def State.recordAddr (s : State) (l : LinkId) : Nat := ((s.anchor.map (·.recordBase.toNat)).getD 0) + 96 * l.val

/-- The steps of a write queue entry as it begins; a status entry samples its fields now (R193). -/
def State.entrySteps (s : State) (q : QEntry) : List WStep :=
  match q.kind with
  | .status m => genSteps s.statusAddr s.statusGen (s.statusBody m)
  | .taken | .result | .done .. | .watch | .alloc | .collapse | .release | .clear => q.steps

/-! ## Faults of a write (R13, R140, R190) -/

/-- A record write ends by a fault: the link goes back to the head of the dirty set (R13, R15). -/
def State.recordFault (s : State) (l : LinkId) (addr : Nat) (k : FaultKind) : State :=
  { s with writing := none, dirty := l :: s.dirty.filter (fun x => !decide (x = l)), retry := some .dirtySet }.takeFault
    addr k .recordWrite

/-- A write queue entry ends by a fault: it stays at the head of the queue (R140, R15). -/
def State.queueFault (s : State) (addr : Nat) (k : FaultKind) : State :=
  { s with writing := none, retry := some .queue }.takeFault addr k .queueWrite

/-- The mark of one status block entry that stands for two: the later one's, unless it is plain. -/
def QEntry.markOr (m : StatusMark) (q : QEntry) : StatusMark :=
  match q.kind with
  | .status .loading => .loading
  | .status .idle => .idle
  | .status .plain | .taken | .result | .done .. | .watch | .alloc | .collapse | .release | .clear => m

/-- The head entry counts again as one that has not begun. Of two status block entries that then wait the one at the
head is kept, with the mark of both (R193; assumption log 51). -/
def State.unbegin (s : State) : State :=
  match s.writeQueue with
  | ⟨.status m, steps⟩ :: rest =>
    { s with writeQueue :=
        ⟨.status (rest.foldl QEntry.markOr m), steps⟩ :: rest.filter fun q => !q.kind.isStatus }
  | _ => s

/-- A step lies inside the result window (R190). -/
def State.stepOk (s : State) (w : WStep) : Bool := s.inWindow w.addr w.bytes.length

/-! ## The beginning of a write (R15) -/

/-- The other source. -/
def Source.other : Source → Source
  | .dirtySet => .queue
  | .queue => .dirtySet

/-- A source has work. -/
def State.hasWork (s : State) : Source → Bool
  | .dirtySet => !s.dirty.isEmpty
  | .queue => !s.writeQueue.isEmpty

/-- The source that is taken next: the one to retry after a write fault, else in turn, else the one that has
work (R15). -/
def State.nextSource (s : State) : Option Source :=
  match s.retry with
  | some src => if s.hasWork src then some src else if s.hasWork src.other then some src.other else none
  | none =>
    if s.hasWork s.lastSource.other then some s.lastSource.other
    else if s.hasWork s.lastSource then some s.lastSource
    else none

/-- The links whose record write stage 4 of LOADING awaits. -/
def State.awaited (s : State) : List LinkId :=
  match s.loading with
  | some (.completing ls _) => ls
  | some .anchor | some .plan | some .reconciling | none => []

/-- A step of a record write at an address (R12). -/
def recordStepAt (base : Nat) (gen : BitVec 16) (body : List Byte) (step : Fin 3) : WStep :=
  (genSteps base gen body).getD step.val ⟨0, []⟩

/-- A step of a record write is issued, or is a WINDOW fault (R12, R190). -/
def State.issueStep (s : State) (l : LinkId) (base : Nat) (gen : BitVec 16) (body : List Byte) (carried : LinkState)
    (counts : Bool) (step : Fin 3) : State :=
  let w := recordStepAt base gen body step
  if s.stepOk w then { s with writing := some (.record l base gen body carried counts step false) }
  else s.recordFault l w.addr .window

/-- A record write begins: the link at the head of the dirty set is taken, its fields sampled (R12, R14). -/
def State.beginRecord (s : State) : State :=
  match s.dirty with
  | l :: rest =>
    let r := (s.link l).record
    { s with dirty := rest, lastSource := .dirtySet, retry := none }.issueStep l (s.recordAddr l) r.generation r.body
      r.state (decide (l ∈ s.awaited)) 0
  | [] => s

/-- A status block entry that begins has sampled its fields: the block is not due (R193). -/
def State.sampled (s : State) (q : QEntry) : State := if q.kind.isStatus then { s with statusDue := false } else s

/-- A write queue entry begins: its first step is issued, or is a WINDOW fault (R140, R190). -/
def State.beginEntry (s : State) : State :=
  match s.writeQueue with
  | q :: _ =>
    let steps := s.entrySteps q
    let s := { s.sampled q with lastSource := .queue, retry := none }
    match steps with
    | w :: _ =>
      if s.stepOk w then { s with writing := some (.queue steps) } else s.queueFault w.addr .window
    | [] => { s with writing := some (.queue []) }
  | [] => s

/-- The idle writer begins the next write; it begins none in IDLE, in FAULTED, or before an anchor of the last
START is accepted (R14, R15, R184). -/
def State.beginWrite (s : State) : State :=
  if s.writing.isNone ∧ s.part ≠ .idle ∧ s.part ≠ .faulted ∧ s.accepted then
    match s.nextSource with
    | some .dirtySet => s.beginRecord
    | some .queue => s.beginEntry
    | none => s
  else s

/-! ## Record writes (R12, R13, R16) -/

/-- The last-written state and the LINK_CHANGE notice at a completed record write (R16). -/
def State.noteWritten (s : State) (l : LinkId) (carried : LinkState) : State :=
  let before := s.lastWritten[l]
  let s := { s with lastWritten := s.lastWritten.set l (some carried) }
  match before with
  | none => s
  | some st => if st = carried then s else s.notify Notice.linkChange

/-- The generation of a record; it is not a change that makes the link dirty (R12, R14). -/
def State.setGeneration (s : State) (l : LinkId) (g : BitVec 16) : State :=
  s.putLink l { s.link l with record := { (s.link l).record with generation := g } }

/-- A record write that stage 4 of LOADING awaited has completed (R184). -/
def State.loadingWritten (s : State) (l : LinkId) (counts : Bool) : State :=
  match s.loading with
  | some (.completing ls landed) =>
    if counts then { s with loading := some (.completing (ls.filter fun x => !decide (x = l)) landed) } else s
  | some .anchor | some .plan | some .reconciling | none => s

/-- A record write completes (R12, R16). -/
def State.recordDone (s : State) (l : LinkId) (gen : BitVec 16) (carried : LinkState) (counts : Bool) : State :=
  ((({ s with writing := none }.setGeneration l (gen + 2)).noteWritten l carried).loadingWritten l counts).checkRunning

/-- A step of a record write has landed, where it was issued: the next is issued, or the write is complete (R12). A
write that CP_RESET has ended issues no further step (R13). -/
def State.recordLands (s : State) (l : LinkId) (base : Nat) (gen : BitVec 16) (body : List Byte)
    (carried : LinkState) (counts : Bool) (step : Fin 3) (ended : Bool) : State :=
  let s := s.land (recordStepAt base gen body step)
  match step with
  | 0 => if ended then { s with writing := none } else s.issueStep l base gen body carried counts 1
  | 1 => if ended then { s with writing := none } else s.issueStep l base gen body carried counts 2
  | 2 => s.recordDone l gen carried counts

/-- The step in issue of a record write ends (R12, R13, R190), also where a fault of a read has made the part FAULTED
meanwhile (assumption log 47). -/
def State.recordStepEnds (s : State) (err : Bool) : State :=
  match s.writing with
  | some (.record l base gen body carried counts step ended) =>
    if err then
      if ended then { s with writing := none }
      else s.recordFault l (recordStepAt base gen body step).addr .writeError
    else s.recordLands l base gen body carried counts step ended
  | some (.queue _) | some (.finishing _) | none => s

/-! ## Write queue entries (R140, R155, R185, R193) -/

/-- How a run of steps ends: all landed, or a fault with its address and kind. -/
inductive Landing where
  | done
  | fault (addr : Nat) (kind : FaultKind)
  deriving DecidableEq, Repr

/-- The steps land one after another, each window-checked before it is issued, up to the step for which the
memory reports an error (R12, R140, R190). -/
def State.landSteps (s : State) (err : Option Nat) : List WStep → State × Landing
  | [] => (s, .done)
  | w :: ws =>
    if !s.stepOk w then (s, .fault w.addr .window)
    else
      match err with
      | some 0 => (s, .fault w.addr .writeError)
      | some (n + 1) => (s.land w).landSteps (some n) ws
      | none => (s.land w).landSteps none ws

/-- The status write that stage 3 of LOADING queued has landed (R184). -/
def State.loadingStatus (s : State) : State :=
  match s.loading with
  | some (.completing ls _) => { s with loading := some (.completing ls true) }
  | some .anchor | some .plan | some .reconciling | none => s

/-- What a landed status block entry brings about (R184, R185, R193). -/
def State.statusLands (s : State) (m : StatusMark) : State :=
  let s := { s with statusGen := s.statusGen + 2 }
  match m with
  | .plain => s
  | .loading => s.loadingStatus
  | .idle => if s.part = .quiescing ∧ s.writeQueue = [] ∧ s.contexts = [] then s.enterIdle else s

/-- What a landed entry brings about, by its kind. -/
def State.entryLands (s : State) (k : QKind) : State :=
  match k with
  | .taken | .result | .watch | .collapse | .release | .clear => s
  | .alloc => s.notify Notice.discrepancy
  | .done _ ref notify => s.doneLands ref notify
  | .status m => s.statusLands m

/-- The head entry has landed and leaves the queue. -/
def State.headLands (s : State) : State :=
  match s.writeQueue with
  | q :: rest => (({ s with writing := none, writeQueue := rest }.entryLands q.kind).checkRunning).checkQuiesce
  | [] => { s with writing := none }

/-- The write of the head entry ends (R140), also where a fault of a read has made the part FAULTED meanwhile
(assumption log 47). What CP_RESET let finish lands with no other effect (R13, R190): a DONE word too counts neither in
orders completed nor towards ORDER_DONE (R155, R188; DESIGN CHOICE, unsafe, assumption log 6). -/
def State.entryEnds (s : State) (err : Option Nat) : State :=
  match s.writing with
  | some (.queue steps) =>
    match s.landSteps err steps with
    | (s, .done) => s.headLands
    | (s, .fault addr k) => s.unbegin.queueFault addr k
  | some (.finishing w) =>
    if err = some 0 then { s with writing := none } else { s.land w with writing := none }
  | some (.record ..) | none => s

end Sys2Proof.Machine
end

