-- ==== Sys2Proof/Machine/PartStates.lean ====
section
/-! DEFINITION. The part states (R184 to R189): START and the judgement of the anchor block, STOP, RESUME,
CP_RESET, power-on. -/

namespace Sys2Proof.Machine

/-! ## START and the anchor (R182 to R184) -/

/-- The anchor block address (R180). -/
def State.anchorAddr (s : State) : Addr := s.anchorHi ++ s.anchorLo

/-- LOADING ends with BAD_ANCHOR and a cause; the part returns to IDLE (R183, R184). -/
def State.badAnchor (s : State) (c : AnchorCause) : State :=
  { s.enterIdle with loading := none, anchorRead := .idle, loadResult := .badAnchor, anchorCause := some c }

/-- START in IDLE (R184): the ALIGN check, and the anchor read issued. -/
def State.startLoading (s : State) : State :=
  let s := { s with accepted := false, loadQueue := [], part := .loading, loading := some .anchor }
  if s.anchorAddr.toNat % 128 = 0 then { s with anchorRead := .outstanding } else s.badAnchor .align

/-- Own tags change with the chassis number or the controller slot (R2). -/
def tagsDiffer (old : Option Anchor) (new : Anchor) : Bool :=
  match old with
  | none => true
  | some a => decide (a.chassis ≠ new.chassis ∨ a.slot ≠ new.slot)

/-- Every link takes a change of its own tag (R2), in rising link number, in which those that change enter the dirty
set (assumption log 44). -/
def State.changeOwnTags (s : State) : State :=
  (allBelow 64).foldl (fun s l => s.onLink l fun e lk => lk.ownTagChanges e) s

/-- Acceptance (R184, stage 2), and the START load asked for (R37). -/
def State.acceptAnchor (s : State) (a : Anchor) : State :=
  let differ := tagsDiffer s.anchor a
  let s := { s with
    anchor := some a, accepted := true, loadResult := .ok, anchorCause := none, anchorRead := .idle,
    loading := some .plan, loadQueue := [.start] }
  let s := s.clearLog a.logLength
  if differ then s.changeOwnTags else s

/-- The anchor read returns (R183). One that STOP or CP_RESET left behind is discarded, with its data or its error
(R185, R188, R190; assumption log 16). -/
def State.anchorReadReturns (s : State) (data : Option (Vector Byte 128)) : State :=
  if 0 < s.staleAnchorReads then { s with staleAnchorReads := s.staleAnchorReads - 1 }
  else
    match s.anchorRead, data with
    | .outstanding, none => { s with anchorRead := .faulted }.takeFault s.anchorAddr.toNat .readError .anchorRead
    | .outstanding, some bs =>
      match judgeAnchor bs.toList with
      | .ok a => s.acceptAnchor a
      | .error c => s.badAnchor c
    | .idle, _ | .faulted, _ => s

/-- An anchor read outstanding is to be discarded when it returns (R185, R188). -/
def State.abandonAnchorRead (s : State) : State :=
  { s with anchorRead := .idle,
           staleAnchorReads := s.staleAnchorReads + bit (decide (s.anchorRead = .outstanding)) }

/-! ## STOP (R185) -/

/-- A START load in its read stage, or waiting, is abandoned (R185). -/
def State.abandonStart (s : State) : State :=
  let s := { s with loadQueue := s.loadQueue.filter fun r => !decide (r = LoadReq.start) }
  match s.load with
  | some ld => if ld.req = LoadReq.start then s.abandonLoad else s
  | none => s

/-- STOP in RUNNING or LOADING: QUIESCING is entered (R158, R185). -/
def State.stopPart (s : State) : State :=
  let s := if s.part = .loading then { (s.abandonAnchorRead.abandonStart) with loading := none } else s
  ((s.changePart .quiescing).stopOrders).checkQuiesce

/-! ## RESUME (R186) -/

/-- The slot reads that faulted are made again (R153). -/
def State.rereadSlots (s : State) : State :=
  { s with contexts := s.contexts.map fun c =>
      match c.phase with
      | .reading _ => { c with phase := .reading false }
      | .active .. | .closing .. => c }

/-- The load in progress goes on with the row it had reached (R25). -/
def State.resumeLoad (s : State) : State :=
  match s.load with
  | some ld => { s with load := some { ld with reading := true } }
  | none => s

/-- The anchor read that faulted is made again (R184). -/
def State.resumeAnchor (s : State) : State :=
  match s.anchorRead with
  | .faulted => { s with anchorRead := .outstanding }
  | .idle | .outstanding => s

/-- RESUME in FAULTED (R186). -/
def State.resumePart (s : State) (p : PartState) : State :=
  (((({ s with resume := none }.changePart p).rereadSlots).resumeLoad).resumeAnchor).checkQuiesce

/-! ## CP_RESET (R188) -/

/-- The write in progress at CP_RESET: only the step in issue finishes (R13, R188). -/
def Writing.atReset (w : Option Writing) : Option Writing :=
  match w with
  | some (.record l base gen body carried _ step _) => some (.record l base gen body carried false step true)
  | some (.queue (x :: _)) => some (.finishing x)
  | some (.queue []) | none => none
  | some (.finishing x) => some (.finishing x)

/-- Every self-check is aborted or leaves its list (R117). -/
def State.abortSelfChecks (s : State) : State := (allBelow 16).foldl (fun s e => s.abortSelf e) s

/-- What CP_RESET clears, but for the self-checks. The source that the Record Writer took last stays as it is, a write
that is cut short having counted when it began (R15, R188; DESIGN CHOICE, unsafe, assumption log 59). -/
def State.clearControl (s : State) : State :=
  let s := s.abandonLoad.abandonAnchorRead
  { s with
    part := .idle, resume := none, attn := .none, loading := none, posted := [], postMark := 0, contexts := [],
    selfRequests := [], loadQueue := [], writeQueue := [], dirty := [], lastWritten := Bank.fill 64 none,
    writing := Writing.atReset s.writing, retry := none, log := s.log.map fun _ => none, notices := 0,
    coalesce := 0, holdoff := none, faultAddr := 0, faultKind := .none, faultSource := .none, multiple := false,
    statusDue := false, spacing := none }

/-- CP_RESET (R188). -/
def State.controlReset (s : State) : State := s.clearControl.abortSelfChecks

/-! ## Power-on and the reset pin (R189) -/

/-- The initial state. The commands that wait, host memory and the model's own counters stay (assumption log
23). -/
def State.wholeReset (s : State) : State :=
  { State.reset with pending := s.pending, hostMem := s.hostMem, messages := s.messages, seedsDrawn := s.seedsDrawn }

end Sys2Proof.Machine
end

