-- ==== Sys2Proof/Decode.lean ====
section
/-! DEFINITION. Which command a write to the register window is (R147, R180, R181), and the host's question
about table words: no row of spec/opcode_table.json gives bits, so no word spells a command. -/

namespace Sys2Proof

/-- The index of an attention word, bits 15..8 (R147, R180). -/
def attentionIndex (w : Word) : Byte := w.extractLsb' 8 8

/-- The priority of an attention word, bits 18..16 (R147, R180). -/
def attentionPrio (w : Word) : BitVec 3 := w.extractLsb' 16 3

/-- The command that an attention word is (R147, R180): action in bits 1..0, then index and priority; the other
bits are ignored. -/
def decodeAttention (w : Word) : Instr :=
  match (w.extractLsb' 0 2).toNat with
  | 1 => .post (attentionIndex w) (attentionPrio w)
  | 2 => .recallSlot (attentionIndex w)
  | 3 => .release (attentionIndex w)
  | _ => .attentionBadAction (attentionIndex w) (attentionPrio w)

/-- The command that a write of `value` at `offset` of the register window is (R180, R181). Total: every
write is some row. -/
def decodeWrite (offset value : Word) : Instr :=
  match offset.toNat with
  | 0x04 =>
    match value.toNat with
    | 1 => .start
    | 2 => .stop
    | 3 => .resume
    | 4 => .cpReset
    | _ => .registerWrite offset value
  | 0x0C => decodeAttention value
  | 0x10 => .noticeClear value
  | 0x14 => .noticeEnableWrite value
  | _ => .registerWrite offset value

/-- The command a table word spells: none, since no row of the table gives bits (assumption log 27). -/
def decodeTableWord (_nbits _w : Nat) : Option Instr := none

end Sys2Proof
end

