-- ==== Sys2Proof/WellFormed.lean ====
section
/-! DEFINITION. When a command is spelled as its own row: the operands' types carry every range but one, that a
REGISTER_WRITE is a write which no other row of the table is (R147, R180, R181). A register write that is another row's
has that row's effect all the same (assumption log 24). -/

namespace Sys2Proof

/-- A command is well formed when a register write is not the write of another row. -/
def Instr.wf (i : Instr) : Bool :=
  match i with
  | .registerWrite offset value => decide (decodeWrite offset value = .registerWrite offset value)
  | _ => true

end Sys2Proof
end

