-- ==== Sys2Proof/Machine/Control.lean ====
section
/-! DEFINITION. The commands that the host gives at the register window, with power-on and the reset pin (R147 to
R149, R154, R180 to R189, R191). -/

namespace Sys2Proof.Machine

/-! ## What each write to the register window does -/

/-- START: taken in IDLE, ignored elsewhere (R184). -/
def State.startWrite (s : State) : State := if s.part = .idle then s.startLoading else s

/-- STOP: taken in RUNNING and LOADING, ignored elsewhere (R185). -/
def State.stopWrite (s : State) : State := if s.part = .running ∨ s.part = .loading then s.stopPart else s

/-- RESUME: taken in FAULTED, ignored elsewhere (R186). -/
def State.resumeWrite (s : State) : State :=
  match s.part, s.resume with
  | .faulted, some p => s.resumePart p
  | _, _ => s

/-- POST: the part state decides first (R148), then R149. -/
def State.postWrite (s : State) (index : Byte) (prio : BitVec 3) : State :=
  if s.part = .idle ∨ s.quiescing then s.answerAttn .notRunning
  else if s.beforeAccept then s.answerAttn .badIndex
  else s.postTaken index.toNat prio.toNat

/-- RECALL: the part state decides first (R148), then R154. -/
def State.recallWrite (s : State) (index : Byte) : State :=
  if s.part = .idle then s.answerAttn .notRunning
  else if s.beforeAccept then s.answerAttn .notFound
  else s.recallTaken index.toNat

/-- RELEASE: the part state decides first (R148), then R142. -/
def State.releaseWrite (s : State) (index : Byte) : State :=
  if s.part = .idle then s.answerAttn .notRunning
  else if s.beforeAccept then s.answerAttn .notFound
  else s.releaseTaken index.toNat

/-- An attention word of no action: BAD_INDEX, in IDLE NOT_RUNNING (R147, R148). -/
def State.badActionWrite (s : State) : State := s.answerAttn (if s.part = .idle then .notRunning else .badIndex)

/-- NOTICE: the flags whose bits are written 1 are cleared (R191). -/
def State.noticeWrite (s : State) (bits : Word) : State :=
  s.setNotices (s.notices &&& ~~~(bits.setWidth 5)) s.noticeEnable

/-- NOTICE_ENABLE: the enabled set is replaced (R180, R191). -/
def State.enableWrite (s : State) (bits : Word) : State := s.setNotices s.notices (bits.setWidth 5)

/-- CONTROL: a command code, and no effect for any other value (R181). -/
def State.controlWrite (s : State) (value : Word) : State :=
  match value.toNat with
  | 1 => s.startWrite
  | 2 => s.stopWrite
  | 3 => s.resumeWrite
  | 4 => s.controlReset
  | _ => s

/-- ATTENTION: an attention word by its action (R147, R180). -/
def State.attentionWrite (s : State) (value : Word) : State :=
  match (value.extractLsb' 0 2).toNat with
  | 1 => s.postWrite (attentionIndex value) (attentionPrio value)
  | 2 => s.recallWrite (attentionIndex value)
  | 3 => s.releaseWrite (attentionIndex value)
  | _ => s.badActionWrite

/-- A write of any value at any offset of the register window: the anchor address in IDLE, CONTROL, ATTENTION, NOTICE
and NOTICE_ENABLE, and nothing elsewhere (R180, R181). -/
def State.writeRegister (s : State) (offset value : Word) : State :=
  match offset.toNat with
  | 0x04 => s.controlWrite value
  | 0x0C => s.attentionWrite value
  | 0x10 => s.noticeWrite value
  | 0x14 => s.enableWrite value
  | 0x18 => if s.part = .idle then { s with anchorLo := value } else s
  | 0x1C => if s.part = .idle then { s with anchorHi := value } else s
  | _ => s

/-! ## The commands -/

/-- POWER_ON (R189). -/
def execPowerOn (s : State) : Host.Outcome State Fault Refusal := .next s.wholeReset

/-- RESET_PIN (R189). -/
def execResetPin (s : State) : Host.Outcome State Fault Refusal := .next s.wholeReset

/-- START (R184). -/
def execStart (s : State) : Host.Outcome State Fault Refusal := .next s.startWrite

/-- STOP (R185). -/
def execStop (s : State) : Host.Outcome State Fault Refusal := .next s.stopWrite

/-- RESUME (R186). -/
def execResume (s : State) : Host.Outcome State Fault Refusal := .next s.resumeWrite

/-- CP_RESET, in any part state (R188). -/
def execCpReset (s : State) : Host.Outcome State Fault Refusal := .next s.controlReset

/-- POST (R148, R149). -/
def execPost (index : Byte) (prio : BitVec 3) (s : State) : Host.Outcome State Fault Refusal :=
  .next (s.postWrite index prio)

/-- RECALL (R148, R154). -/
def execRecall (index : Byte) (s : State) : Host.Outcome State Fault Refusal := .next (s.recallWrite index)

/-- RELEASE (R142, R148). -/
def execRelease (index : Byte) (s : State) : Host.Outcome State Fault Refusal := .next (s.releaseWrite index)

/-- An attention word of no action (R147, R148). -/
def execAttentionBadAction (_index : Byte) (_prio : BitVec 3) (s : State) : Host.Outcome State Fault Refusal :=
  .next s.badActionWrite

/-- NOTICE (R191). -/
def execNoticeClear (bits : Word) (s : State) : Host.Outcome State Fault Refusal := .next (s.noticeWrite bits)

/-- NOTICE_ENABLE (R180, R191). -/
def execNoticeEnableWrite (bits : Word) (s : State) : Host.Outcome State Fault Refusal := .next (s.enableWrite bits)

/-- REGISTER_WRITE: the write has its effect whatever row of the table spells it (R180; assumption log 24). -/
def execRegisterWrite (offset value : Word) (s : State) : Host.Outcome State Fault Refusal :=
  .next (s.writeRegister offset value)

end Sys2Proof.Machine
end

