-- ==== Sys2Proof/Machine/Conversation.lean ====
section
/-! DEFINITION. The commands that are pages reaching a Link Sequencer (R67 to R73, R81, R85, R86, R123). -/

namespace Sys2Proof.Machine

/-- IDENT_RECEIVED (R67, R73). -/
def execIdentReceived (l : LinkId) (s : State) : Host.Outcome State Fault Refusal :=
  .next (match (s.link l).inbox with
    | .page ⟨t, .ident sp k st tag u b⟩ :: _ =>
      (s.dropEvent l).onLink l fun e lk => lk.identArrives e t sp k st tag u b
    | _ => s)

/-- TRAIN_READY_RECEIVED (R69, R70). -/
def execTrainReadyReceived (l : LinkId) (s : State) : Host.Outcome State Fault Refusal :=
  .next (match (s.link l).inbox with
    | .page ⟨t, .trainReady⟩ :: _ => (s.dropEvent l).onLink l fun e lk => lk.trainReadyArrives e t
    | _ => s)

/-- TRAINED_RECEIVED (R70). -/
def execTrainedReceived (l : LinkId) (s : State) : Host.Outcome State Fault Refusal :=
  .next (match (s.link l).inbox with
    | .page ⟨t, .trained⟩ :: _ => (s.dropEvent l).onLink l fun e lk => lk.trainedArrives e t
    | _ => s)

/-- QUAL_READY_RECEIVED, which may start the run (R119, R123). -/
def execQualReadyReceived (l : LinkId) (s : State) : Host.Outcome State Fault Refusal :=
  .next (match (s.link l).inbox with
    | .page ⟨t, .qualReady seed⟩ :: _ =>
      ((s.dropEvent l).onLink l fun _ lk => lk.qualReadyArrives t seed).tryRunStart l
    | _ => s)

/-- QUAL_RESULT_RECEIVED (R44, R123). -/
def execQualResultReceived (l : LinkId) (s : State) : Host.Outcome State Fault Refusal :=
  .next (match (s.link l).inbox with
    | .page ⟨t, .qualResult v _⟩ :: _ => (s.dropEvent l).onLink l fun e lk => lk.qualResultArrives e t v
    | _ => s)

/-- REQUAL_RECEIVED (R86). -/
def execRequalReceived (l : LinkId) (s : State) : Host.Outcome State Fault Refusal :=
  .next (match (s.link l).inbox with
    | .page ⟨t, .requal⟩ :: _ => (s.dropEvent l).onLink l fun e lk => lk.requalArrives e t
    | _ => s)

/-- KEEPALIVE_RECEIVED (R85). -/
def execKeepaliveReceived (l : LinkId) (s : State) : Host.Outcome State Fault Refusal :=
  .next (match (s.link l).inbox with
    | .page ⟨t, .keepalive⟩ :: _ => (s.dropEvent l).onLink l fun e lk => lk.keepaliveArrives e t
    | _ => s)

/-- BYE_RECEIVED (R73, R81). -/
def execByeReceived (l : LinkId) (s : State) : Host.Outcome State Fault Refusal :=
  .next (match (s.link l).inbox with
    | .page ⟨t, .bye r⟩ :: _ => (s.dropEvent l).onLink l fun e lk => lk.byeArrives e t r
    | _ => s)

/-- PAGE_ERROR_REPORT (R68). -/
def execPageErrorReport (l : LinkId) (s : State) : Host.Outcome State Fault Refusal :=
  .next (match (s.link l).inbox with
    | .pageError :: _ => (s.dropEvent l).onLink l fun e lk => lk.pageErrorArrives e
    | _ => s)

end Sys2Proof.Machine
end

