-- ==== Sys2Proof/Machine/LaneTests.lean ====
section
/-! DEFINITION. The commands of the Lane Test Engines and of their reports (R113 to R122). -/

namespace Sys2Proof.Machine

/-- The oldest message of a link to its engine is taken. -/
def State.dropEngMsg (s : State) (l : LinkId) : State :=
  s.putLink l { s.link l with toEngine := (s.link l).toEngine.drop 1 }

/-- ENGINE_REQUEST (R113). -/
def execEngineRequest (l : LinkId) (s : State) : Host.Outcome State Fault Refusal :=
  .next (match (s.link l).toEngine with
    | .request prio :: _ => (s.dropEngMsg l).engineAsk (engineOfLink l) ⟨.link l, prio⟩
    | _ => s)

/-- SELF_CHECK_REQUEST, the oldest on its way (R114). -/
def execSelfCheckRequest (s : State) : Host.Outcome State Fault Refusal :=
  .next (match s.selfRequests with
    | c :: rest => { s with selfRequests := rest }.selfCheckAsk c
    | [] => s)

/-- ENGINE_DEPARTURE (R116). -/
def execEngineDeparture (l : LinkId) (s : State) : Host.Outcome State Fault Refusal :=
  .next (match (s.link l).toEngine with
    | .departure :: _ => (s.dropEngMsg l).engineDeparts (engineOfLink l) l
    | _ => s)

/-- ENGINE_GRANT (R116, R119). -/
def execEngineGrant (l : LinkId) (s : State) : Host.Outcome State Fault Refusal :=
  .next (match (s.link l).inbox with
    | .grant :: _ => (s.dropEvent l).takeGrant l
    | _ => s)

/-- START_BLOCK_RECEIVED (R121). -/
def execStartBlockReceived (e : EngineId) (lane : Lane) (s : State) : Host.Outcome State Fault Refusal :=
  .next (s.startBlock e lane)

/-- TEST_WORD_RECEIVED (R121, R122). -/
def execTestWordReceived (e : EngineId) (lane : Lane) (word : BitVec 64) (s : State) :
    Host.Outcome State Fault Refusal :=
  .next (s.testWord e lane word)

/-- RUN_LIMIT_EXPIRY (R121, R122). -/
def execRunLimitExpiry (e : EngineId) (s : State) : Host.Outcome State Fault Refusal :=
  .next (match (s.engine e).phase with
    | .running => (s.putEngine e (s.engine e).addShortfall).endRun e
    | .free | .granted => s)

/-- RUN_RESULT (R122). -/
def execRunResult (l : LinkId) (s : State) : Host.Outcome State Fault Refusal :=
  .next (match (s.link l).inbox with
    | .runResult lmis leg v :: _ => (s.dropEvent l).onLink l fun e lk => lk.runEnds e lmis leg v
    | _ => s)

end Sys2Proof.Machine
end

