-- ==== Sys2Proof/Machine/Loading.lean ====
section
/-! DEFINITION. The commands that end the part's reads of the anchor block and of the plan, and a link's taking of
a row change (R20, R25, R27, R183). -/

namespace Sys2Proof.Machine

/-- ANCHOR_READ_DONE (R183, R184). -/
def execAnchorReadDone (data : Option (Vector Byte 128)) (s : State) : Host.Outcome State Fault Refusal :=
  .next (s.anchorReadReturns data)

/-- LOAD_BEGIN (R25). -/
def execLoadBegin (s : State) : Host.Outcome State Fault Refusal := .next s.beginLoad

/-- PLAN_ROW_READ_DONE (R20, R25, R26). -/
def execPlanRowReadDone (data : Option (Vector Byte 64)) (s : State) : Host.Outcome State Fault Refusal :=
  .next (s.planReadReturns data)

/-- ROW_CHANGE: the oldest event of the link is a row change, taken now (R27 to R33); the last of a START load lets
LOADING go on (R14, R184). -/
def execRowChange (l : LinkId) (s : State) : Host.Outcome State Fault Refusal :=
  .next (match (s.link l).inbox with
    | .rowChange d :: _ =>
      (((s.dropEvent l).onLink l fun e lk => lk.reconcile e d (legOf l)).onLink l fun e lk =>
        lk.reconcileEnd e d (legOf l)).checkReconciled
    | _ => s)

end Sys2Proof.Machine
end

