-- ==== Sys2Proof/Machine/Measuring.lean ====
section
/-! DEFINITION. The commands of the Deskew and Echo Unit and of its reports (R69, R70, R101 to R108). -/

namespace Sys2Proof.Machine

/-- The next echo request falls due: request 1, then request 2, 1 ms apart (R105). -/
def Link.echoDue (lk : Link) : Link :=
  match lk.echo.running, lk.echo.timer, lk.echo.next with
  | true, some _, 1 => { lk with echo := { lk.echo with next := 2, timer := some (msec 1) } }.queuePage (.echoReq 1)
  | true, some _, 2 => { lk with echo := { lk.echo with next := 3, timer := none } }.queuePage (.echoReq 2)
  | _, _, _ => lk

/-- ECHO_REQ_DUE (R105). -/
def execEchoReqDue (l : LinkId) (s : State) : Host.Outcome State Fault Refusal :=
  .next (s.onLink l fun _ lk => lk.echoDue)

/-- ECHO_REPLY_RECEIVED: the oldest reply handed to the unit (R106). -/
def execEchoReplyReceived (l : LinkId) (s : State) : Host.Outcome State Fault Refusal :=
  .next (s.onLink l fun _ lk =>
    match lk.echo.replies with
    | r :: rest => { lk with echo := { lk.echo with replies := rest } }.echoMatch r
    | [] => lk)

/-- ECHO_REPLY_TIMER_EXPIRY (R106). -/
def execEchoReplyTimerExpiry (l : LinkId) (sample : Fin 3) (s : State) : Host.Outcome State Fault Refusal :=
  .next (s.onLink l fun _ lk => lk.echoExpire sample)

/-- LENGTH_RESULT (R69, R108). -/
def execLengthResult (l : LinkId) (s : State) : Host.Outcome State Fault Refusal :=
  .next (match (s.link l).inbox with
    | .lengthResult m :: _ => (s.dropEvent l).onLink l fun e lk => lk.lengthArrives e m
    | _ => s)

/-- MARKER_TX: a marker on every lane of a leg in TRAIN (R101). -/
def execMarkerTx (l : LinkId) (s : State) : Host.Outcome State Fault Refusal :=
  .next (s.onLink l fun _ lk => if lk.record.state = .train then { lk with wire := lk.wire ++ [.markers] } else lk)

/-- A marker on a near lane: it ends or restarts the gap of 2048 UI, sets the reference, or gives the lane's first
offset (R102). -/
def Link.markerSeen (lk : Link) (lane : Lane) (time : Nat) : Link :=
  match lk.skew with
  | .gap last =>
    { lk with skew :=
        if last + 2048 ≤ time then .collecting time ((Bank.fill 8 none).set lane (some 0)) else .gap time }
  | .collecting ref offsets =>
    if offsets[lane] = none ∧ time - ref < 1024 then
      { lk with skew := .collecting ref (offsets.set lane (some (time - ref))) }
    else lk
  | .idle => lk

/-- MARKER_DETECTED on a physical lane, which the effective split gives to a link's near lane, where the link is in
TRAIN (R3, R101, R102). -/
def execMarkerDetected (port : PortId) (lane : Lane) (time : Nat) (s : State) : Host.Outcome State Fault Refusal :=
  let near := nearLane (s.splitOf port) lane
  .next (s.onLink (linkOf port near.1) fun _ lk =>
    if lk.record.state = .train then lk.markerSeen near.2 time else lk)

/-- The lowest near lane with no offset. -/
def lowestWithout (offsets : Vector (Option Nat) 8) (width : Nat) : Option Lane :=
  (allBelow 8).find? fun i => decide (i.val < width) && (offsets[i]).isNone

/-- The skew span: the largest offset of the leg (R103). -/
def skewSpan (offsets : List Nat) : Nat := offsets.foldl max 0

/-- The deskew delays: the span less each offset (R103). -/
def deskewDelays (offsets : List Nat) : List Nat := offsets.map fun a => skewSpan offsets - a

/-- The end of the measurement: LANE_MISSING, SKEW_EXCESS above 255 UI, or the delays applied (R102, R103). The
lanes of the leg are those of the effective split at this moment, also before the link has taken the ROW_CHANGE of a
change of split (DESIGN CHOICE, unsafe, assumption log 62). -/
def Link.skewEnds (e : Env) (lk : Link) : Link :=
  match lk.skew with
  | .collecting _ offsets =>
    let lk := { lk with skew := .idle }
    match lowestWithout offsets e.width with
    | some i => { lk with inbox := lk.inbox ++ [.skewResult (.missing i)] }
    | none =>
      let xs := (offsets.toList.take e.width).map fun o => o.getD 0
      if skewSpan xs ≤ 255 then
        { lk with delays := some (deskewDelays xs),
                  inbox := lk.inbox ++ [.skewResult (.applied (skewSpan xs) (deskewDelays xs))] }
      else { lk with inbox := lk.inbox ++ [.skewResult (.excess (skewSpan xs))] }
  | .gap _ | .idle => lk

/-- SKEW_MEASUREMENT_END (R102, R103). -/
def execSkewMeasurementEnd (l : LinkId) (s : State) : Host.Outcome State Fault Refusal :=
  .next (s.onLink l fun e lk => if lk.record.state = .train then lk.skewEnds e else lk)

/-- SKEW_RESULT (R70). -/
def execSkewResult (l : LinkId) (s : State) : Host.Outcome State Fault Refusal :=
  .next (match (s.link l).inbox with
    | .skewResult o :: _ => (s.dropEvent l).onLink l fun e lk => lk.skewArrives e o
    | _ => s)

end Sys2Proof.Machine
end

