-- ==== Sys2Proof/Machine/OrderEvents.lean ====
section
/-! DEFINITION. The commands of the Order Unit beside the attention word: takes, slot reads, answers and events of
links, ends of loads, timeouts (R152, R153, R157, R162, R168, R171, R177, R178). -/

namespace Sys2Proof.Machine

/-- TAKE (R152). -/
def execTake (s : State) : Host.Outcome State Fault Refusal := .next s.takeOne

/-- SLOT_READ_DONE: the read of a context in READING returns; one that CP_RESET left behind is discarded
(R153, R188). -/
def execSlotReadDone (seq : Word) (data : Option (Vector Byte 128)) (s : State) :
    Host.Outcome State Fault Refusal :=
  .next (match s.ctx? seq with
    | some ⟨slot, prio, q, .reading false⟩ =>
      match data with
      | some bs => s.slotData ⟨slot, prio, q, .reading false⟩ bs.toList
      | none => s.slotFault ⟨slot, prio, q, .reading false⟩
    | _ => s)

/-- The oldest message of a link to the Order Unit is taken. -/
def State.dropOrdMsg (s : State) (l : LinkId) : State :=
  s.putLink l { s.link l with toOrder := (s.link l).toOrder.drop 1 }

/-- LINK_ANSWER (R162, R168 to R173, R177). -/
def execLinkAnswer (l : LinkId) (s : State) : Host.Outcome State Fault Refusal :=
  .next (match (s.link l).toOrder with
    | .answer ref a :: _ => (s.dropOrdMsg l).answerArrives l ref a
    | _ => s)

/-- REQUALIFY_OUTCOME (R171). -/
def execRequalifyOutcome (l : LinkId) (s : State) : Host.Outcome State Fault Refusal :=
  .next (match (s.link l).toOrder with
    | .requalDone ref q :: _ => (s.dropOrdMsg l).requalArrives ref q
    | _ => s)

/-- LINK_EVENT (R157, R176 to R178). -/
def execLinkEvent (l : LinkId) (s : State) : Host.Outcome State Fault Refusal :=
  .next (match (s.link l).toOrder with
    | OrdMsg.event ev :: _ => (s.dropOrdMsg l).offerAll l ev
    | _ => s)

/-- LOAD_END_REPORT: the oldest report of the Plan Cache (R162 to R166). -/
def execLoadEndReport (s : State) : Host.Outcome State Fault Refusal :=
  .next (match s.loadReports with
    | r :: rest => { s with loadReports := rest }.loadReport r
    | [] => s)

/-- AWAIT_TIMEOUT: the timeout of an ACTIVE AWAIT expires (R178). -/
def execAwaitTimeout (seq : Word) (s : State) : Host.Outcome State Fault Refusal :=
  .next (match s.ctx? seq with
    | some ⟨_, _, _, .active (.await ..) _⟩ => s.endStanding seq .timeout
    | _ => s)

end Sys2Proof.Machine
end

