-- ==== Sys2Proof/Machine/Pages.lean ====
section
/-! DEFINITION. The commands of the Page Link and the Page Processor (R40 to R57). -/

namespace Sys2Proof.Machine

/-- PAGE_ARRIVAL on a physical lane, which the effective split gives to a link's near lane (R3, R41). -/
def execPageArrival (port : PortId) (lane : Lane) (page : Arrival) (s : State) :
    Host.Outcome State Fault Refusal :=
  let near := nearLane (s.splitOf port) lane
  .next (s.onLink (linkOf port near.1) fun e lk => lk.pageArrives e near.2 page)

/-- The links in the order of the next turn: after the last served, wrapping from 63 to 0 (R54). -/
def turnOrder (last : LinkId) : List LinkId := (allBelow 64).map fun i => last + 1 + i

/-- PAGE_PROCESSOR_TURN (R54). -/
def execPageProcessorTurn (s : State) : Host.Outcome State Fault Refusal :=
  .next (match (turnOrder s.lastServed).find? fun l => !(s.link l).rx.isEmpty with
    | some l => { s.onLink l fun _ lk => lk.serve with lastServed := l }
    | none => s)

/-- PAGE_TX_START (R38, R50, R52). -/
def execPageTxStart (l : LinkId) (now : Nat) (s : State) : Host.Outcome State Fault Refusal :=
  .next (s.onLink l fun e lk => lk.txStart e now)

/-- PAGE_TX_END (R50, R56, R69, R70, R118); the first QUAL_READY sent may start the run (R119). -/
def execPageTxEnd (l : LinkId) (now : Nat) (s : State) : Host.Outcome State Fault Refusal :=
  .next ((s.onLink l fun e lk => lk.txEnd e now).tryRunStart l)

/-- ANNOUNCE_EXPIRY (R47). -/
def execAnnounceExpiry (l : LinkId) (s : State) : Host.Outcome State Fault Refusal :=
  .next (s.onLink l fun e lk => if lk.timers.announce.isSome then lk.announce e else lk)

/-- KEEPALIVE_TIMER_EXPIRY (R48). -/
def execKeepaliveTimerExpiry (l : LinkId) (s : State) : Host.Outcome State Fault Refusal :=
  .next (s.onLink l fun _ lk =>
    if lk.timers.keepalive.isSome then
      { lk with timers := { lk.timers with keepalive := some (msec 10) } }.queuePage .keepalive
    else lk)

/-- BYE_COPY_DUE (R49). -/
def execByeCopyDue (l : LinkId) (s : State) : Host.Outcome State Fault Refusal :=
  .next (s.onLink l fun _ lk => if lk.byeTimer.isSome then lk.byeCopy else lk)

/-- HOLD_LIMIT_EXPIRY (R57). -/
def execHoldLimitExpiry (l : LinkId) (s : State) : Host.Outcome State Fault Refusal :=
  .next (s.onLink l fun _ lk => { lk with heldBy := none })

/-- HOLD_FORCE_LIMIT_EXPIRY (R56). -/
def execHoldForceLimitExpiry (l : LinkId) (s : State) : Host.Outcome State Fault Refusal :=
  .next (s.onLink l fun _ lk => if lk.holdForce.isSome then lk.holdForceEnds else lk)

end Sys2Proof.Machine
end

