-- ==== Sys2Proof/Machine/Reporting.lean ====
section
/-! DEFINITION. The commands of the Record Writer, the Log Unit, the Notice Unit, the status block and the uptime
counter (R12, R15, R136, R140, R192 to R194). -/

namespace Sys2Proof.Machine

/-- WRITER_BEGIN (R15). -/
def execWriterBegin (s : State) : Host.Outcome State Fault Refusal := .next s.beginWrite

/-- RECORD_WRITE_STEP_DONE (R12, R13). -/
def execRecordWriteStepDone (err : Bool) (s : State) : Host.Outcome State Fault Refusal :=
  .next (s.recordStepEnds err)

/-- QUEUE_WRITE_DONE (R140). -/
def execQueueWriteDone (err : Option Nat) (s : State) : Host.Outcome State Fault Refusal := .next (s.entryEnds err)

/-- DISCREPANCY_EVENT: the oldest discrepancy of a link reaches the Log Unit (R135, R136). -/
def execDiscrepancyEvent (l : LinkId) (s : State) : Host.Outcome State Fault Refusal :=
  .next (match (s.link l).toLog with
    | d :: rest => (s.putLink l { s.link l with toLog := rest }).discrepancyArrives l d
    | [] => s)

/-- HOLDOFF_EXPIRY (R192). -/
def execHoldoffExpiry (s : State) : Host.Outcome State Fault Refusal :=
  .next (match s.holdoff with
    | some _ => if 1 ≤ s.coalesce then { s with holdoff := none }.announceDone else { s with holdoff := none }
    | none => s)

/-- STATUS_SPACING_END: an entry is queued when the block is due and none waits (R193). -/
def execStatusSpacingEnd (s : State) : Host.Outcome State Fault Refusal :=
  .next (match s.spacing with
    | some _ => if s.statusDue then { s with spacing := none }.queueStatus else { s with spacing := none }
    | none => s)

/-! ## The passing of a millisecond (R194) -/

/-- One millisecond off a running timer (assumption log 3). -/
def Timer.tick (t : Timer) : Timer := t.map fun n => n - 1000000

/-- The timers of a sequencer; the peer-silent timer is paused while HOLD is in force (R56). -/
def Timers.tick (t : Timers) (paused : Bool) : Timers where
  presence := Timer.tick t.presence
  absence := Timer.tick t.absence
  pairing := Timer.tick t.pairing
  verify := Timer.tick t.verify
  train := Timer.tick t.train
  qualifyWait := Timer.tick t.qualifyWait
  peerResult := Timer.tick t.peerResult
  backoff := Timer.tick t.backoff
  peerSilent := if paused then t.peerSilent else Timer.tick t.peerSilent
  announce := Timer.tick t.announce
  keepalive := Timer.tick t.keepalive
  burst := Timer.tick t.burst

/-- The reply timer of an OUTSTANDING sample. -/
def Sample.tick : Sample → Sample
  | .outstanding at_ n => .outstanding at_ (n - 1000000)
  | .waiting => .waiting
  | .answered rtt h x => .answered rtt h x
  | .lost => .lost

/-- The timers of a link. -/
def Link.tick (lk : Link) : Link :=
  { lk with
    timers := lk.timers.tick lk.holdForce.isSome
    holdForce := Timer.tick lk.holdForce
    heldBy := Timer.tick lk.heldBy
    byeTimer := Timer.tick lk.byeTimer
    echo := { lk.echo with timer := Timer.tick lk.echo.timer, samples := Bank.map Sample.tick lk.echo.samples } }

/-- The timeout of an AWAIT. -/
def Ctx.tick (c : Ctx) : Ctx :=
  match c.phase with
  | .active o (.viewing waiting view t) => { c with phase := .active o (.viewing waiting view (Timer.tick t)) }
  | .active o p => { c with phase := .active o p }
  | .reading b => { c with phase := .reading b }
  | .closing st b => { c with phase := .closing st b }

/-- UPTIME_TICK: the uptime counts one millisecond, and every running timer has one less (R194). -/
def execUptimeTick (s : State) : Host.Outcome State Fault Refusal :=
  .next { s with
    uptime := s.uptime + 1
    links := Bank.map Link.tick s.links
    engines := Bank.map (fun en => { en with runLimit := Timer.tick en.runLimit }) s.engines
    contexts := s.contexts.map Ctx.tick
    holdoff := Timer.tick s.holdoff
    spacing := Timer.tick s.spacing }

end Sys2Proof.Machine
end

