-- ==== Sys2Proof/Machine/Stages.lean ====
section
/-! DEFINITION. The commands of the Link Sequencer that are timers, signals and orders (R63 to R88, R124, R170,
R177). -/

namespace Sys2Proof.Machine

/-- PRESENCE_DEADLINE_EXPIRY: MISSING_CABLE, and the deadline is not started again (R82). -/
def execPresenceDeadlineExpiry (l : LinkId) (s : State) : Host.Outcome State Fault Refusal :=
  .next (s.onLink l fun e lk =>
    if lk.timers.presence.isSome then
      { lk with timers := { lk.timers with presence := none } }.raise e .missingCable 0 e.expected none e.uptime
    else lk)

/-- ABSENCE_TIMER_EXPIRY: the heard flag becomes false (R83). -/
def execAbsenceTimerExpiry (l : LinkId) (s : State) : Host.Outcome State Fault Refusal :=
  .next (s.onLink l fun _ lk =>
    if lk.timers.absence.isSome then
      { lk with timers := { lk.timers with absence := none }, stage := { lk.stage with heard := false } }
    else lk)

/-- The lowest near lane of the leg with no observation. -/
def lowestUnobserved (lk : Link) (width : Nat) : Option Lane :=
  (allBelow 8).find? fun i => decide (i.val < width) && (lk.obs[i]).isNone

/-- The observed identity of a LANE_MISSING in PAIRING: the neighbour, or else the tag of the lowest observed near
lane (R133). -/
def Link.pairingObserved (e : Env) (lk : Link) : Option Tag :=
  match lk.neighbourTag with
  | some t => some t
  | none => (presentObs lk.obs e.width).head?.map fun p => p.2.tag

/-- The pairing timer of a link in PAIRING expires (R67). -/
def Link.pairingExpires (e : Env) (lk : Link) : Link :=
  match lowestUnobserved lk e.width with
  | some i =>
    (lk.raise e .laneMissing i.val e.expected (lk.pairingObserved e) e.uptime).retryable e (.disc .laneMissing)
  | none => lk.retryable e .timeoutPairing

/-- PAIRING_TIMER_EXPIRY (R67, R74). -/
def execPairingTimerExpiry (l : LinkId) (s : State) : Host.Outcome State Fault Refusal :=
  .next (s.onLink l fun e lk => if lk.timers.pairing.isSome then lk.pairingExpires e else lk)

/-- VERIFY_TIMER_EXPIRY (R69, R74). -/
def execVerifyTimerExpiry (l : LinkId) (s : State) : Host.Outcome State Fault Refusal :=
  .next (s.onLink l fun e lk => if lk.timers.verify.isSome then lk.retryable e .timeoutVerify else lk)

/-- TRAIN_TIMER_EXPIRY (R70, R74). -/
def execTrainTimerExpiry (l : LinkId) (s : State) : Host.Outcome State Fault Refusal :=
  .next (s.onLink l fun e lk => if lk.timers.train.isSome then lk.retryable e .timeoutTrain else lk)

/-- QUALIFY_WAIT_EXPIRY (R74, R124). -/
def execQualifyWaitExpiry (l : LinkId) (s : State) : Host.Outcome State Fault Refusal :=
  .next (s.onLink l fun e lk => if lk.timers.qualifyWait.isSome then lk.retryable e .timeoutQualify else lk)

/-- PEER_RESULT_WAIT_EXPIRY (R74, R124). -/
def execPeerResultWaitExpiry (l : LinkId) (s : State) : Host.Outcome State Fault Refusal :=
  .next (s.onLink l fun e lk => if lk.timers.peerResult.isSome then lk.retryable e .timeoutQualify else lk)

/-- BACKOFF_EXPIRY: LISTEN (R76). -/
def execBackoffExpiry (l : LinkId) (s : State) : Host.Outcome State Fault Refusal :=
  .next (s.onLink l fun e lk => if lk.timers.backoff.isSome then lk.move e .listen else lk)

/-- PEER_SILENT_EXPIRY: no expiry while HOLD is in force (R56, R64). -/
def execPeerSilentExpiry (l : LinkId) (s : State) : Host.Outcome State Fault Refusal :=
  .next (s.onLink l fun e lk =>
    if lk.timers.peerSilent.isSome ∧ lk.holdForce.isNone then lk.failBy e .peerSilent else lk)

/-- BURST_INTERVAL_END: the next interval, with the limit in force (R84). -/
def execBurstIntervalEnd (l : LinkId) (s : State) : Host.Outcome State Fault Refusal :=
  .next (s.onLink l fun e lk =>
    if lk.timers.burst.isSome then
      { lk with burstCount := 0, burstLimit := lk.burstLimitNow e, timers := { lk.timers with burst := some (msec 1) } }
    else lk)

/-- LANE_STREAM_ERROR in UP: one more in the interval, and ERROR_BURST past the limit (R84, R85). -/
def execLaneStreamError (l : LinkId) (s : State) : Host.Outcome State Fault Refusal :=
  .next (s.onLink l fun e lk =>
    if lk.record.state = .up then
      let lk := { lk with burstCount := satInc 65536 lk.burstCount }
      if lk.burstLimit < lk.burstCount then lk.lose e .errorBurst else lk
    else lk)

/-- Loss of signal on a near lane, by state (R80). -/
def Link.signalLost (e : Env) (lk : Link) (lane : Lane) : Link :=
  match lk.record.state with
  | .pairing => if (lk.obs[lane]).isSome then lk.retryable e .linkLost else lk
  | .verify | .train | .qualify => lk.retryable e .linkLost
  | .up => lk.lose e .linkLost
  | .off | .listen | .backoff | .held => lk

/-- LOSS_OF_SIGNAL on a physical lane, which the effective split gives to a link's near lane (R3, R80). -/
def execLossOfSignal (port : PortId) (lane : Lane) (s : State) : Host.Outcome State Fault Refusal :=
  let near := nearLane (s.splitOf port) lane
  .next (s.onLink (linkOf port near.1) fun e lk => lk.signalLost e near.2)

/-- The first valid beacon of a link in LISTEN: PAIRING, with one evaluation per observation held (R66, R94). -/
def Link.firstBeacon (e : Env) (lk : Link) (lane : Lane) : Link :=
  let others := ((presentObs lk.obs e.width).map (·.1)).filter fun i => !decide (i = lane)
  let lk := (lk.move e .pairing).followObs
  { lk with inbox := lk.inbox ++ evaluateEntry e lk.obs (lane :: others) (Bank.fill 8 none) }

/-- The report of a first valid beacon reaches a sequencer (R66). A leg that has come to expect none meanwhile drops
it with the observations, so that the next beacon kept is a first one again (R82, R94; assumption log 39). One whose
observation has been cleared meanwhile takes the link to PAIRING all the same (assumption log 52). -/
def Link.firstReport (e : Env) (lk : Link) (lane : Lane) : Link :=
  if lk.record.state = .listen then
    if e.leg.kind = .none then { lk with obs := Bank.fill 8 none } else lk.firstBeacon e lane
  else lk

/-- FIRST_VALID_BEACON (R66). -/
def execFirstValidBeacon (l : LinkId) (s : State) : Host.Outcome State Fault Refusal :=
  .next (match (s.link l).inbox with
    | .firstBeacon lane :: _ => (s.dropEvent l).onLink l fun e lk => lk.firstReport e lane
    | _ => s)

/-- A beacon reported to a quiet listener (R83). -/
def Link.quietHeard (e : Env) (lk : Link) (lane : Lane) (tag : Tag) (seen : Word) : Link :=
  let lk := if lk.stage.heard then lk else lk.raise e .unexpectedCable lane.val none (some tag) seen
  { lk with stage := { lk.stage with heard := true }, timers := { lk.timers with absence := some (msec 2000) } }

/-- QUIET_BEACON (R83). A report that is taken when the leg has come to expect a cable is dropped (assumption log
39). -/
def execQuietBeacon (l : LinkId) (s : State) : Host.Outcome State Fault Refusal :=
  .next (match (s.link l).inbox with
    | .quietBeacon lane tag seen :: _ =>
      (s.dropEvent l).onLink l fun e lk =>
        if lk.record.state = .listen ∧ e.leg.kind = .none then lk.quietHeard e lane tag seen else lk
    | _ => s)

/-- MAP_OUTCOME (R98). -/
def execMapOutcome (l : LinkId) (s : State) : Host.Outcome State Fault Refusal :=
  .next (match (s.link l).inbox with
    | .mapOutcome complete :: _ =>
      (s.dropEvent l).onLink l fun e lk =>
        if lk.record.state = .pairing then
          { lk with stage := { lk.stage with mapComplete := complete } }.tryVerify e
        else lk
    | _ => s)

/-- MAP_FINDING (R77, R97). -/
def execMapFinding (l : LinkId) (s : State) : Host.Outcome State Fault Refusal :=
  .next (match (s.link l).inbox with
    | .mapFinding f :: _ =>
      (s.dropEvent l).onLink l fun e lk =>
        if lk.record.state = .pairing then lk.fatal e f.kind f.lane.val f.observed f.seen else lk
    | _ => s)

/-- An answer of the sequencer to a context. -/
def Link.answer (lk : Link) (ref : Word) (a : Answer) : Link := { lk with toOrder := lk.toOrder ++ [.answer ref a] }

/-- The state that an order is told of: a NOT PRESENT link is in OFF (R170, R172, R177), also while its record still
shows another state because it has not yet taken the ROW_CHANGE that stops it (R29; DESIGN CHOICE, unsafe, assumption
log 63). -/
def Link.stateShown (e : Env) (lk : Link) : LinkState := if e.present then lk.record.state else .off

/-- BRING_UP_EVENT, with the answer of R168 (R88). -/
def execBringUpEvent (l : LinkId) (s : State) : Host.Outcome State Fault Refusal :=
  .next (match (s.link l).inbox with
    | .bringUp ref :: _ =>
      (s.dropEvent l).onLink l fun e lk =>
        (lk.bringUp e).answer ref (.acted (e.usable && e.present && !lk.record.selfCheck))
    | _ => s)

/-- TAKE_DOWN_EVENT, with the answer of R169 by the state of the record (R87; before the ROW_CHANGE of a link made NOT
PRESENT the choice of assumption log 63). -/
def execTakeDownEvent (l : LinkId) (s : State) : Host.Outcome State Fault Refusal :=
  .next (match (s.link l).inbox with
    | .takeDown ref :: _ =>
      (s.dropEvent l).onLink l fun e lk =>
        (lk.takeDown e).answer ref (.acted (decide (lk.record.state ≠ .off)))
    | _ => s)

/-- REQUALIFY_EVENT: from UP to QUALIFY with the order's priority, else the state is answered (R86, R170). A link that
is NOT PRESENT is refused with OFF, also the old leg-1 link of a port made WHOLE whose record is still in UP before its
ROW_CHANGE (R4, R29, R170; DESIGN CHOICE, unsafe, assumption log 63). -/
def execRequalifyEvent (l : LinkId) (s : State) : Host.Outcome State Fault Refusal :=
  .next (match (s.link l).inbox with
    | .requalify ref prio :: _ =>
      (s.dropEvent l).onLink l fun e lk =>
        if e.present ∧ lk.record.state = .up then
          (lk.move e .qualify { stage := { byRequalify := true }, prio := prio, requal := some ref }).answer ref .started
        else lk.answer ref (.state (lk.stateShown e))
    | _ => s)

/-- STATE_QUERY: the sequencer answers with its state, and a NOT PRESENT link is answered OFF (R172, R177; assumption log
63). -/
def execStateQuery (l : LinkId) (s : State) : Host.Outcome State Fault Refusal :=
  .next (match (s.link l).inbox with
    | .stateQuery ref :: _ => (s.dropEvent l).onLink l fun e lk => lk.answer ref (.state (lk.stateShown e))
    | _ => s)

end Sys2Proof.Machine
end

