-- ==== Sys2Proof/Machine/Dispatch.lean ====
section
/-! DEFINITION. The meaning of each command, one arm per constructor. -/

namespace Sys2Proof.Machine

def exec (i : Instr) (s : State) : Host.Outcome State Fault Refusal :=
  match i with
  | .powerOn => Sys2Proof.Machine.execPowerOn s
  | .resetPin => Sys2Proof.Machine.execResetPin s
  | .start => Sys2Proof.Machine.execStart s
  | .stop => Sys2Proof.Machine.execStop s
  | .resume => Sys2Proof.Machine.execResume s
  | .cpReset => Sys2Proof.Machine.execCpReset s
  | .post index prio => Sys2Proof.Machine.execPost index prio s
  | .recallSlot index => Sys2Proof.Machine.execRecall index s
  | .release index => Sys2Proof.Machine.execRelease index s
  | .attentionBadAction index prio => Sys2Proof.Machine.execAttentionBadAction index prio s
  | .noticeClear bits => Sys2Proof.Machine.execNoticeClear bits s
  | .noticeEnableWrite bits => Sys2Proof.Machine.execNoticeEnableWrite bits s
  | .registerWrite offset value => Sys2Proof.Machine.execRegisterWrite offset value s
  | .anchorReadDone data => Sys2Proof.Machine.execAnchorReadDone data s
  | .loadBegin => Sys2Proof.Machine.execLoadBegin s
  | .planRowReadDone data => Sys2Proof.Machine.execPlanRowReadDone data s
  | .rowChange link => Sys2Proof.Machine.execRowChange link s
  | .take => Sys2Proof.Machine.execTake s
  | .slotReadDone seq data => Sys2Proof.Machine.execSlotReadDone seq data s
  | .writerBegin => Sys2Proof.Machine.execWriterBegin s
  | .recordWriteStepDone err => Sys2Proof.Machine.execRecordWriteStepDone err s
  | .queueWriteDone err => Sys2Proof.Machine.execQueueWriteDone err s
  | .pageArrival port lane page => Sys2Proof.Machine.execPageArrival port lane page s
  | .pageProcessorTurn => Sys2Proof.Machine.execPageProcessorTurn s
  | .pageTxStart link now => Sys2Proof.Machine.execPageTxStart link now s
  | .pageTxEnd link now => Sys2Proof.Machine.execPageTxEnd link now s
  | .announceExpiry link => Sys2Proof.Machine.execAnnounceExpiry link s
  | .keepaliveTimerExpiry link => Sys2Proof.Machine.execKeepaliveTimerExpiry link s
  | .byeCopyDue link => Sys2Proof.Machine.execByeCopyDue link s
  | .holdLimitExpiry link => Sys2Proof.Machine.execHoldLimitExpiry link s
  | .holdForceLimitExpiry link => Sys2Proof.Machine.execHoldForceLimitExpiry link s
  | .presenceDeadlineExpiry link => Sys2Proof.Machine.execPresenceDeadlineExpiry link s
  | .absenceTimerExpiry link => Sys2Proof.Machine.execAbsenceTimerExpiry link s
  | .pairingTimerExpiry link => Sys2Proof.Machine.execPairingTimerExpiry link s
  | .verifyTimerExpiry link => Sys2Proof.Machine.execVerifyTimerExpiry link s
  | .trainTimerExpiry link => Sys2Proof.Machine.execTrainTimerExpiry link s
  | .qualifyWaitExpiry link => Sys2Proof.Machine.execQualifyWaitExpiry link s
  | .peerResultWaitExpiry link => Sys2Proof.Machine.execPeerResultWaitExpiry link s
  | .backoffExpiry link => Sys2Proof.Machine.execBackoffExpiry link s
  | .peerSilentExpiry link => Sys2Proof.Machine.execPeerSilentExpiry link s
  | .burstIntervalEnd link => Sys2Proof.Machine.execBurstIntervalEnd link s
  | .laneStreamError link => Sys2Proof.Machine.execLaneStreamError link s
  | .lossOfSignal port lane => Sys2Proof.Machine.execLossOfSignal port lane s
  | .firstValidBeacon link => Sys2Proof.Machine.execFirstValidBeacon link s
  | .quietBeacon link => Sys2Proof.Machine.execQuietBeacon link s
  | .mapOutcome link => Sys2Proof.Machine.execMapOutcome link s
  | .mapFinding link => Sys2Proof.Machine.execMapFinding link s
  | .identReceived link => Sys2Proof.Machine.execIdentReceived link s
  | .trainReadyReceived link => Sys2Proof.Machine.execTrainReadyReceived link s
  | .trainedReceived link => Sys2Proof.Machine.execTrainedReceived link s
  | .qualReadyReceived link => Sys2Proof.Machine.execQualReadyReceived link s
  | .qualResultReceived link => Sys2Proof.Machine.execQualResultReceived link s
  | .requalReceived link => Sys2Proof.Machine.execRequalReceived link s
  | .keepaliveReceived link => Sys2Proof.Machine.execKeepaliveReceived link s
  | .byeReceived link => Sys2Proof.Machine.execByeReceived link s
  | .pageErrorReport link => Sys2Proof.Machine.execPageErrorReport link s
  | .echoReqDue link => Sys2Proof.Machine.execEchoReqDue link s
  | .echoReplyReceived link => Sys2Proof.Machine.execEchoReplyReceived link s
  | .echoReplyTimerExpiry link sample => Sys2Proof.Machine.execEchoReplyTimerExpiry link sample s
  | .lengthResult link => Sys2Proof.Machine.execLengthResult link s
  | .markerTx link => Sys2Proof.Machine.execMarkerTx link s
  | .markerDetected port lane time => Sys2Proof.Machine.execMarkerDetected port lane time s
  | .skewMeasurementEnd link => Sys2Proof.Machine.execSkewMeasurementEnd link s
  | .skewResult link => Sys2Proof.Machine.execSkewResult link s
  | .engineRequest link => Sys2Proof.Machine.execEngineRequest link s
  | .selfCheckRequest => Sys2Proof.Machine.execSelfCheckRequest s
  | .engineDeparture link => Sys2Proof.Machine.execEngineDeparture link s
  | .engineGrant link => Sys2Proof.Machine.execEngineGrant link s
  | .startBlockReceived engine lane => Sys2Proof.Machine.execStartBlockReceived engine lane s
  | .testWordReceived engine lane word => Sys2Proof.Machine.execTestWordReceived engine lane word s
  | .runLimitExpiry engine => Sys2Proof.Machine.execRunLimitExpiry engine s
  | .runResult link => Sys2Proof.Machine.execRunResult link s
  | .bringUpEvent link => Sys2Proof.Machine.execBringUpEvent link s
  | .takeDownEvent link => Sys2Proof.Machine.execTakeDownEvent link s
  | .requalifyEvent link => Sys2Proof.Machine.execRequalifyEvent link s
  | .stateQuery link => Sys2Proof.Machine.execStateQuery link s
  | .linkAnswer link => Sys2Proof.Machine.execLinkAnswer link s
  | .requalifyOutcome link => Sys2Proof.Machine.execRequalifyOutcome link s
  | .loadEndReport => Sys2Proof.Machine.execLoadEndReport s
  | .linkEvent link => Sys2Proof.Machine.execLinkEvent link s
  | .awaitTimeout seq => Sys2Proof.Machine.execAwaitTimeout seq s
  | .discrepancyEvent link => Sys2Proof.Machine.execDiscrepancyEvent link s
  | .holdoffExpiry => Sys2Proof.Machine.execHoldoffExpiry s
  | .statusSpacingEnd => Sys2Proof.Machine.execStatusSpacingEnd s
  | .uptimeTick => Sys2Proof.Machine.execUptimeTick s

end Sys2Proof.Machine
end

