-- ==== Sys2Proof/Safety.lean ====
section
/-! DEFINITION. What a claim means by a step of one link and by a change of the status block's mark, what a page, a
map, a length and a policy are by their rules, and the invariants of the machine. -/

namespace Sys2Proof.Machine

/-! ## Frames -/

/-- `t` is `s` but for the status block: it may be due, with one entry queued (R193). -/
structure StatusOnly (s t : State) : Prop where
  rest : { t with writeQueue := s.writeQueue, statusDue := s.statusDue, spacing := s.spacing } = s
  queue : t.writeQueue = s.writeQueue ∨ t.writeQueue = s.writeQueue ++ [⟨.status .plain, []⟩]

/-- `t` is `s` but for what link `l` keeps, its entry in the dirty set (R14), and the status block (R193): no other
link, register, row, order, record or byte of memory is changed. Outside IDLE a change of the link's record leaves
the link in the dirty set, and a change of its state leaves the status block due. -/
structure OnlyLink (l : LinkId) (s t : State) : Prop where
  others : ∀ k, k ≠ l → t.link k = s.link k
  rest : { t with links := s.links, dirty := s.dirty, writeQueue := s.writeQueue, statusDue := s.statusDue,
                  spacing := s.spacing } = s
  dirtyKept : s.dirty <+: t.dirty
  dirtyNew : ∀ k ∈ t.dirty, k ∈ s.dirty ∨ k = l
  queueKept : s.writeQueue <+: t.writeQueue
  queueNew : ∀ q ∈ t.writeQueue, q ∈ s.writeQueue ∨ q.kind.isStatus = true
  marked : s.part ≠ .idle → (t.link l).record ≠ (s.link l).record → l ∈ t.dirty
  dueKept : s.statusDue = true → t.statusDue = true
  due : s.accepted = true → s.part ≠ .idle → (t.link l).record.state ≠ (s.link l).record.state → t.statusDue = true

/-- The link that a command acts on, for the commands that act on one link and on nothing else. -/
def linkOfCommand (s : State) : Instr → Option LinkId
  | .pageArrival port lane _ | .lossOfSignal port lane | .markerDetected port lane _ =>
    some (linkOf port (nearLane (s.splitOf port) lane).1)
  | .pageTxStart l _ | .announceExpiry l | .keepaliveTimerExpiry l | .byeCopyDue l
  | .holdLimitExpiry l | .holdForceLimitExpiry l | .presenceDeadlineExpiry l | .absenceTimerExpiry l
  | .pairingTimerExpiry l | .verifyTimerExpiry l | .trainTimerExpiry l | .qualifyWaitExpiry l
  | .peerResultWaitExpiry l | .backoffExpiry l | .peerSilentExpiry l | .burstIntervalEnd l | .laneStreamError l
  | .firstValidBeacon l | .quietBeacon l | .mapOutcome l | .mapFinding l | .identReceived l
  | .trainReadyReceived l | .trainedReceived l | .qualResultReceived l | .requalReceived l | .keepaliveReceived l
  | .byeReceived l | .pageErrorReport l | .echoReqDue l | .echoReplyReceived l | .echoReplyTimerExpiry l _
  | .lengthResult l | .markerTx l | .skewMeasurementEnd l | .skewResult l | .runResult l
  | .bringUpEvent l | .takeDownEvent l | .requalifyEvent l | .stateQuery l => some l
  | .powerOn | .resetPin | .start | .stop | .resume | .cpReset | .post .. | .recallSlot _ | .release _
  | .attentionBadAction .. | .noticeClear _ | .noticeEnableWrite _ | .registerWrite .. | .anchorReadDone _
  | .loadBegin | .planRowReadDone _ | .rowChange _ | .take | .slotReadDone .. | .writerBegin | .recordWriteStepDone _
  | .queueWriteDone _ | .pageProcessorTurn | .pageTxEnd .. | .qualReadyReceived _ | .engineRequest _
  | .selfCheckRequest | .engineDeparture _ | .engineGrant _ | .startBlockReceived .. | .testWordReceived ..
  | .runLimitExpiry _ | .linkAnswer _ | .requalifyOutcome _ | .loadEndReport | .linkEvent _ | .awaitTimeout _
  | .discrepancyEvent _ | .holdoffExpiry | .statusSpacingEnd | .uptimeTick => none

/-- `t` is `s` but for what follows in LOADING once the plan has been loaded and every changed row taken (R14, R184):
all 64 links are in the dirty set, those that enter it in rising link number at its tail, and one status block entry
waits that carries part state LOADING, queued at the tail where none waited; where one waited, it takes its place and
none is added (assumption log 68). -/
structure LoadGoesOn (s t : State) : Prop where
  waits : s.loading ≠ some .reconciling ∨ (∃ l d, .rowChange d ∈ (s.link l).inbox) → t = s
  stage : s.loading = some .reconciling → (∀ l d, .rowChange d ∉ (s.link l).inbox) →
    t.loading = some (.completing (allBelow 64) false)
  rest : { t with loading := s.loading, dirty := s.dirty, writeQueue := s.writeQueue, spacing := s.spacing } = s
  queue : t.writeQueue.filter (fun q => !q.kind.isStatus) = s.writeQueue.filter (fun q => !q.kind.isStatus)
  dirty : s.loading = some .reconciling → (∀ l d, .rowChange d ∉ (s.link l).inbox) → s.part ≠ .idle →
    ∃ added, t.dirty = s.dirty ++ added ∧ added.Pairwise (· < ·) ∧ (∀ l ∈ added, l ∉ s.dirty) ∧ ∀ l, l ∈ t.dirty
  status : s.loading = some .reconciling → (∀ l d, .rowChange d ∉ (s.link l).inbox) →
    (∃ q ∈ t.writeQueue, q.kind = .status .loading) ∧
    (s.statusWaiting = false → t.writeQueue = s.writeQueue ++ [⟨.status .loading, []⟩]) ∧
    (s.statusWaiting = true → t.writeQueue.length = s.writeQueue.length ∧ t.spacing = s.spacing)

/-- A command that ends a step of the write in progress (R12, R140). -/
def endsWriteStep : Instr → Bool
  | .recordWriteStepDone _ | .queueWriteDone _ => true
  | _ => false

/-- The steps of the write in progress that a command may land (R12, R140). -/
def State.stepsInProgress (s : State) : List WStep :=
  match s.writing with
  | some (.record _ base gen body _ _ step _) => [recordStepAt base gen body step]
  | some (.queue steps) => steps
  | some (.finishing w) => [w]
  | none => []

/-! ## Pages, maps, lengths and policies as their rules give them -/

/-- The bytes of a received page hold this body: its kind, its flags and its payload, each field in its range (R40,
R42 to R45, R197). -/
def PageBody.fits (bs : List Byte) : PageBody → Prop
  | .beacon sp lane => field bs 0 1 = 1 ∧ field bs 1 1 % 4 = sp.code ∧ field bs 6 1 = lane.val
  | .ident sp k st tag units burst =>
    field bs 0 1 = 2 ∧ field bs 1 1 % 4 = sp.code ∧ field bs 1 1 / 4 % 4 = k.code ∧ field bs 1 1 / 16 % 4 = st.code ∧
      field bs 10 2 = units ∧ 1 ≤ units ∧ units ≤ 16384 ∧ field bs 12 2 = burst ∧ 1 ≤ burst ∧
      (k = .specific → tag = Tag.unpack (BitVec.ofNat 32 (field bs 6 4)) ∧ tag.chassis ≠ 0) ∧
      (k ≠ .specific → tag = Tag.no)
  | .echoReq n => field bs 0 1 = 3 ∧ field bs 6 1 = n.val
  | .echoReply n h => field bs 0 1 = 4 ∧ field bs 6 1 = n.val ∧ field bs 8 2 = h
  | .trainReady => field bs 0 1 = 5
  | .trained => field bs 0 1 = 6
  | .qualReady seed => field bs 0 1 = 7 ∧ BitVec.ofNat 32 (field bs 6 4) = seed
  | .qualResult v lmi => field bs 0 1 = 8 ∧ field bs 6 1 = v.code ∧ field bs 8 2 = lmi ∧ lmi ≤ 480
  | .requal => field bs 0 1 = 9
  | .keepalive => field bs 0 1 = 10
  | .bye r => field bs 0 1 = 11 ∧ field bs 6 1 = r.code
  | .hold => field bs 0 1 = 12
  | .resume => field bs 0 1 = 13

/-- The fields of a page lie in the ranges of its kind (R42 to R45). -/
def PageBody.inRange : PageBody → Prop
  | .ident _ k _ tag units burst =>
    1 ≤ units ∧ units ≤ 16384 ∧ 1 ≤ burst ∧ burst ≤ 65535 ∧ (k = .specific → tag.chassis ≠ 0) ∧
      (k ≠ .specific → tag = Tag.no)
  | .echoReply _ h => h ≤ 65535
  | .qualResult _ lmi => lmi ≤ 480
  | .beacon .. | .echoReq _ | .trainReady | .trained | .qualReady _ | .requal | .keepalive | .bye _ | .hold
  | .resume => True

/-- Check 1 of R96. -/
def LoopedToSelf (own : Tag) (xs : List (Lane × Obs)) : Prop := ∃ x ∈ xs, x.2.tag = own

/-- Check 2 of R96. -/
def SplitMismatch (sp : Split) (xs : List (Lane × Obs)) : Prop :=
  (∃ x ∈ xs, x.2.split ≠ sp) ∨ ∃ x ∈ xs, ∃ y ∈ xs, x.2.tag.chassis = y.2.tag.chassis ∧ x.2.tag.slot = y.2.tag.slot ∧
    x.2.tag.port = y.2.tag.port ∧ x.2.tag.leg ≠ y.2.tag.leg

/-- Check 3 of R96. -/
def MixedCable (xs : List (Lane × Obs)) : Prop :=
  ∃ x ∈ xs, ∃ y ∈ xs, x.2.tag.chassis ≠ y.2.tag.chassis ∨ x.2.tag.slot ≠ y.2.tag.slot ∨ x.2.tag.port ≠ y.2.tag.port

/-- Check 4 of R96. -/
def LaneConflict (width : Nat) (xs : List (Lane × Obs)) : Prop :=
  (∃ x ∈ xs, ∃ y ∈ xs, x.1 ≠ y.1 ∧ x.2.far = y.2.far) ∨ ∃ x ∈ xs, width ≤ x.2.far.val

/-- A measurement has ended and has reported its length: the median of three X values, the smaller of two, the one, or
none (R108). -/
def LengthReported (old new : Link) : Prop :=
  new.echo.running = false ∧ ∀ i j k : Fin 3, i ≠ j → i ≠ k → j ≠ k →
    (∀ a b c, new.echo.samples[i].x? = some a → new.echo.samples[j].x? = some b → new.echo.samples[k].x? = some c →
      new.inbox = old.inbox ++ [.lengthResult (some (median a b c))]) ∧
    (∀ a b, new.echo.samples[i].x? = some a → new.echo.samples[j].x? = some b → new.echo.samples[k].x? = none →
      new.inbox = old.inbox ++ [.lengthResult (some (min a b))]) ∧
    (∀ a, new.echo.samples[i].x? = some a → new.echo.samples[j].x? = none → new.echo.samples[k].x? = none →
      new.inbox = old.inbox ++ [.lengthResult (some a)]) ∧
    (new.echo.samples[i].x? = none → new.echo.samples[j].x? = none → new.echo.samples[k].x? = none →
      new.inbox = old.inbox ++ [.lengthResult none])

/-- The recorded picture of a link fails a check of re-verification against a leg's policy (R30, R100, R109). -/
def LinkRecord.fails (r : LinkRecord) (p : LegPlan) : DiscKind → Prop
  | .unexpectedNeighbour => ∃ want n, p.kind = .specific ∧ p.tag = some want ∧ r.neighbour = some n ∧ n.tag ≠ want
  | .laneOrder =>
    p.remap = .forbid ∧ ∃ (i : Lane) (en : LaneEntry), r.laneMap[i.val]? = some (some en) ∧
      (en.far ≠ i ∨ en.inverted = true)
  | .length =>
    ∃ want tol m, p.length = some (want, tol) ∧ r.length = some m ∧ (m + tol < want ∨ want + tol < m)
  | _ => False

/-- The first check of re-verification that fails, in the order of R30. -/
def LinkRecord.failsFirst (r : LinkRecord) (p : LegPlan) (k : DiscKind) : Prop :=
  r.fails p k ∧ (k ≠ .unexpectedNeighbour → ¬r.fails p .unexpectedNeighbour) ∧
    (k = .length → ¬r.fails p .laneOrder)

/-! ## Invariants -/

/-- The part's writes are kept in the canonical form. -/
def State.memOk (s : State) : Prop := Memory.wf s.hostMem = true

/-- A gate is open if and only if its link is in UP (R17). -/
def State.gatesOk (s : State) : Prop := ∀ l, (s.link l).gate = true ↔ (s.link l).record.state = .up

/-- At most 16 orders are in flight (R151). -/
def State.contextsOk (s : State) : Prop := s.contexts.length ≤ 16

/-- The bounds of a link's FIFO and transmit queue (R51, R53). -/
def State.pagesOk (s : State) : Prop := ∀ l, (s.link l).rx.length ≤ 8 ∧ (s.link l).tx.length ≤ 4

/-- Every pending slot of `s` has left the set in `t` (R158): beside status block entries, what joins the write queue
begins with a DONE of STOPPED for each, in rising post mark, which is the order from any mark behind which none of them
lies by 2^31 or more (R150). -/
structure PostsStopped (s t : State) : Prop where
  left : t.posted = []
  done : ∃ (ps : List PostEntry) (more : List QEntry), ps.Perm s.posted ∧
    t.writeQueue.filter (fun q => !q.kind.isStatus) = s.writeQueue.filter (fun q => !q.kind.isStatus) ++
      ps.map (fun p => s.doneEntry p.slot none false .stopped) ++ more ∧
    ∀ b : Word, (∀ p ∈ s.posted, (p.mark - b).toNat < 2 ^ 31) →
      ps.Pairwise fun p q => (p.mark - b).toNat ≤ (q.mark - b).toNat

/-- The ACTIVE standing orders of `s` end STOPPED in `t`, each with its result and its DONE queued (R158). -/
def StandingStopped (s t : State) : Prop :=
  ∀ c ∈ s.contexts, ∀ o p, c.phase = .active o p → o.standing = true →
    s.resultEntry c.slot (s.standingResult o p) ∈ t.writeQueue ∧
    s.doneEntry c.slot (some c.seq) false .stopped ∈ t.writeQueue ∧
    { c with phase := .closing .stopped true } ∈ t.contexts

/-- At most one HELD record per link (R134). -/
def State.logOk (s : State) : Prop := ∀ l, (s.log.filter (heldBy l)).length ≤ 1

/-- The dirty set holds no link twice (R14). -/
def State.dirtyOk (s : State) : Prop := s.dirty.Nodup

/-- No two takes in flight have one sequence number (R152). -/
def State.seqsOk (s : State) : Prop := (s.contexts.map (·.seq)).Nodup

/-- At most one status block entry that has not begun is in the write queue (R193). -/
def State.statusOk (s : State) : Prop :=
  ((if s.headBegun then s.writeQueue.drop 1 else s.writeQueue).filter fun q => q.kind.isStatus).length ≤ 1

/-- An owner or a waiting entry is a link on, or a self-check of, one of the engine's two ports (R111, R112). -/
def Owner.on (o : Owner) (e : EngineId) : Prop :=
  match o with
  | .link l => engineOfLink l = e
  | .self c => engineOf c.port = e

/-- Every engine is owned and waited for from its own two ports only (R111, R112). -/
def State.enginesOk (s : State) : Prop :=
  ∀ e, (∀ o, (s.engine e).owner = some o → o.on e) ∧ ∀ w ∈ (s.engine e).waiting, w.who.on e

end Sys2Proof.Machine
end

