-- ==== Sys2Proof/Certificates/Slice0/Obligations.lean ====
section
/-! DEFINITION. The statements for the provers. -/

open Sys2Proof Sys2Proof.Machine

/-! ## The machine -/

/-- A step runs the command at the front of the queue with the queue's rest; on an empty queue it idles (assumption
log 1). -/
def Obligations.StepRunsTheFrontCommand : Prop :=
  (∀ (c : Instr) (rest : List Instr) (s : State),
    step { s with pending := c :: rest } = exec c { s with pending := rest }) ∧
  ∀ s : State, s.pending = [] → step s = .next s

/-- Every command answers a next state and leaves the queue. A REGISTER_WRITE that is the write of another row of the
table has that row's effect, since the register decides what a write does (R147, R180, R181; assumption log 24). -/
def Obligations.EveryCommandAnswers : Prop :=
  (∀ (c : Instr) (s : State), ∃ t, exec c s = .next t ∧ t.pending = s.pending) ∧
  ∀ (offset value : Word) (s : State), exec (.registerWrite offset value) s = exec (decodeWrite offset value) s

/-- The part right after reset: the values of R189 and of the rules it names. The empty host memory is the model's
(assumption log 5). POWER_ON and RESET_PIN give the initial state from any state (R189). What stays is not the part's:
the queue, host memory, the model's counters (assumption log 23). -/
def Obligations.ResetIsTheInitialState : Prop :=
  (State.reset.pending = [] ∧ State.reset.part = .idle ∧ State.reset.resume = none ∧
  State.reset.readRegister 0x00 = 0x4B132081 ∧
  (∀ off ∈ ([0x08, 0x10, 0x14, 0x18, 0x1C, 0x20, 0x24, 0x28] : List Word), State.reset.readRegister off = 0) ∧
  State.reset.anchor = none ∧ (∀ p, State.reset.row p = .absent) ∧ State.reset.planBase = none ∧
  State.reset.load = none ∧ State.reset.loadQueue = [] ∧
  (∀ l, State.reset.link l = Link.fresh (legWidth .whole (legOf l))) ∧
  (∀ e, State.reset.engine e = Engine.free []) ∧
  State.reset.posted = [] ∧ State.reset.postMark = 0 ∧ State.reset.takeSeq = 0 ∧ State.reset.contexts = [] ∧
  State.reset.log = [] ∧ State.reset.dirty = [] ∧ State.reset.writeQueue = [] ∧ State.reset.writing = none ∧
  (∀ l : LinkId, State.reset.lastWritten[l] = none) ∧ State.reset.statusGen = 0 ∧ State.reset.ordersTaken = 0 ∧
  State.reset.ordersCompleted = 0 ∧ State.reset.droppedPosts = 0 ∧ State.reset.statusDue = false ∧
  State.reset.spacing = none ∧ State.reset.coalesce = 0 ∧ State.reset.holdoff = none ∧ State.reset.uptime = 0 ∧
  State.reset.lastServed = 63 ∧ State.reset.hostMem = []) ∧
  (∀ (s : State) (c : Instr), c ∈ [Instr.powerOn, Instr.resetPin] →
    exec c s = .next { State.reset with
      pending := s.pending, hostMem := s.hostMem, messages := s.messages, seedsDrawn := s.seedsDrawn })

/-- A command that acts on one link changes nothing but what the link keeps, its place in the dirty set, and the
status block's mark: no other link, register, row, order, log record, engine or byte of memory (R14, R193). A ROW_CHANGE is such a command, and the one that
takes the last changed row of a START load lets LOADING go on as well (R14, R184; assumption log 56 and 68). -/
def Obligations.LinkCommandsChangeOneLink : Prop :=
  (∀ (c : Instr) (l : LinkId) (s t : State), linkOfCommand s c = some l → exec c s = .next t → OnlyLink l s t) ∧
  ∀ (l : LinkId) (s t : State), exec (.rowChange l) s = .next t →
    ((∀ d, (s.link l).inbox.head? ≠ some (.rowChange d)) ∧ t = s) ∨ ∃ u, OnlyLink l s u ∧ LoadGoesOn u t

/-- No command but the end of a write step changes host memory, and then only bytes of the steps of the write in
progress. -/
def Obligations.MemoryChangesOnlyByWriteSteps : Prop :=
  ∀ (c : Instr) (s t : State), exec c s = .next t →
    (endsWriteStep c = false → t.hostMem = s.hostMem) ∧
    ∀ a, (∀ w ∈ s.stepsInProgress, a < w.addr ∨ w.addr + w.bytes.length ≤ a) →
      Memory.get t.hostMem a = Memory.get s.hostMem a

/-! ## Invariants -/

/-- Every step keeps the canonical form of what the part has written (assumption log 5). -/
def Obligations.EveryStepKeepsMemoryCanonical : Prop :=
  ∀ s t : State, s.memOk → step s = .next t → t.memOk

/-- Every step keeps every gate open if and only if its link is in UP (R17). -/
def Obligations.EveryStepKeepsGatesWithUp : Prop :=
  ∀ s t : State, s.gatesOk → step s = .next t → t.gatesOk

/-- Every step keeps at most one HELD record per link (R134, R136); at most 16 orders in flight, 8 pages in a FIFO and
4 in a transmit queue (R51, R53, R151); no link twice in the dirty set (R14); and the takes in flight distinct, while
the next take sequence is not in flight (R152). -/
def Obligations.EveryStepKeepsTheBounds : Prop :=
  (∀ s t : State, s.logOk → step s = .next t → t.logOk) ∧
  (∀ s t : State, s.contextsOk ∧ s.pagesOk → step s = .next t → t.contextsOk ∧ t.pagesOk) ∧
  (∀ s t : State, s.dirtyOk → step s = .next t → t.dirtyOk) ∧
  (∀ s t : State, s.seqsOk → (∀ c ∈ s.contexts, c.seq ≠ s.takeSeq + 1) → step s = .next t → t.seqsOk)

/-- Every step keeps each engine's owner and waiting list on the engine's two ports (R111, R112). -/
def Obligations.EveryStepKeepsEnginesOnTheirPorts : Prop :=
  ∀ s t : State, s.enginesOk → step s = .next t → t.enginesOk

/-- Every step keeps at most one status block entry that has not begun in the write queue (R193). Which of two is kept
when the one begun faults is the model's reading (assumption log 51). -/
def Obligations.EveryStepKeepsOneStatusEntryWaiting : Prop :=
  ∀ s t : State, s.statusOk → step s = .next t → t.statusOk

/-- The state right after reset meets every invariant. -/
def Obligations.ResetMeetsTheInvariants : Prop :=
  State.reset.memOk ∧ State.reset.gatesOk ∧ State.reset.logOk ∧ State.reset.contextsOk ∧ State.reset.pagesOk ∧
    State.reset.enginesOk ∧ State.reset.dirtyOk ∧ State.reset.seqsOk ∧ State.reset.statusOk

/-! ## The register window -/

/-- A register write that is no other row: in IDLE it sets a half of the anchor block address, everywhere else it
changes nothing (R180). NOTICE clears the flags whose bits are written 1, and sends no message; NOTICE_ENABLE replaces
the enabled set, and sends one message when the set both pending and enabled goes from empty to not empty (R180,
R191). -/
def Obligations.RegisterWritesActAtOnce : Prop :=
  (∀ (offset value : Word) (s : State), (Instr.registerWrite offset value).wf = true →
    exec (.registerWrite offset value) s = .next
      (if s.part = .idle ∧ offset = 0x18 then { s with anchorLo := value }
       else if s.part = .idle ∧ offset = 0x1C then { s with anchorHi := value }
       else s)) ∧
  (∀ (bits : Word) (s : State),
    exec (.noticeClear bits) s = .next { s with notices := s.notices &&& ~~~(bits.setWidth 5) } ∧
    exec (.noticeEnableWrite bits) s = .next
      (if s.notices &&& s.noticeEnable = 0 ∧ s.notices &&& bits.setWidth 5 ≠ 0 then
        { s with noticeEnable := bits.setWidth 5, messages := s.messages + 1 }
       else { s with noticeEnable := bits.setWidth 5 }))

/-- POST is answered at once by the first test that meets it: the part state, the slot count, a slot that is known;
else the slot joins the pending set with the next post mark (R148, R149). The answer while a fault holds the part in
QUIESCING is the model's (assumption log 33). -/
def Obligations.PostIsAnsweredAtOnce : Prop :=
  ∀ (index : Byte) (prio : BitVec 3) (s : State),
    exec (.post index prio) s = .next
      (if s.part = .idle ∨ s.quiescing then { s with attn := .notRunning }
       else if s.beforeAccept ∨ s.slotCount ≤ index.toNat then { s with attn := .badIndex }
       else if (∃ p ∈ s.posted, p.slot = index.toNat) ∨ ∃ c ∈ s.contexts, c.slot = index.toNat then
         { s with attn := .duplicate }
       else { s with
         attn := .accepted, postMark := s.postMark + 1,
         posted := s.posted ++ [⟨index.toNat, prio.toNat, s.postMark + 1⟩] })

/-- RECALL is answered at once (R148, R154): a pending slot leaves the set with a DONE of RECALLED, an ACTIVE standing
order ends RECALLED with its result, any other order in flight is TOO_LATE. -/
def Obligations.RecallIsAnsweredAtOnce : Prop :=
  ∀ (index : Byte) (s : State),
    (s.part = .idle → exec (.recallSlot index) s = .next { s with attn := .notRunning }) ∧
    (s.part ≠ .idle → s.beforeAccept = true → exec (.recallSlot index) s = .next { s with attn := .notFound }) ∧
    (s.part ≠ .idle → s.beforeAccept = false → s.slotCount ≤ index.toNat →
      exec (.recallSlot index) s = .next { s with attn := .badIndex }) ∧
    (s.part ≠ .idle → s.beforeAccept = false → index.toNat < s.slotCount →
      ((∃ p ∈ s.posted, p.slot = index.toNat) →
        exec (.recallSlot index) s = .next { s with
          attn := .accepted, posted := s.posted.filter fun p => !decide (p.slot = index.toNat),
          writeQueue := s.writeQueue ++ [s.doneEntry index.toNat none false .recalled] }) ∧
      ((∀ p ∈ s.posted, p.slot ≠ index.toNat) → (∀ c ∈ s.contexts, c.slot ≠ index.toNat) →
        exec (.recallSlot index) s = .next { s with attn := .notFound }) ∧
      ((∀ p ∈ s.posted, p.slot ≠ index.toNat) → s.seqsOk → ∀ c ∈ s.contexts, c.slot = index.toNat →
        (∀ d ∈ s.contexts, d.slot = index.toNat → d = c) →
        (∀ o p, c.phase = .active o p → o.standing = true →
          exec (.recallSlot index) s = .next { s with
            attn := .accepted,
            writeQueue := s.writeQueue ++ [s.resultEntry c.slot (s.standingResult o p),
              s.doneEntry c.slot (some c.seq) false .recalled],
            contexts := s.contexts.map fun d => if d = c then { d with phase := .closing .recalled true } else d }) ∧
        ((∀ o p, c.phase = .active o p → o.standing = false) →
          exec (.recallSlot index) s = .next { s with attn := .tooLate })))

/-- RELEASE is answered at once (R142, R148); a HELD record becomes FREE with its state word written, the held record
count being a field of the status block (R193), whose entry the model queues after the release write (assumption log
40). An attention word of no action is BAD_INDEX, in IDLE NOT_RUNNING
(R147). -/
def Obligations.ReleaseFreesAHeldRecord : Prop :=
  ∀ (index : Byte) (prio : BitVec 3) (s : State),
    exec (.attentionBadAction index prio) s = .next
      { s with attn := if s.part = .idle then .notRunning else .badIndex } ∧
    (s.part = .idle → exec (.release index) s = .next { s with attn := .notRunning }) ∧
    (s.part ≠ .idle → s.beforeAccept = true → exec (.release index) s = .next { s with attn := .notFound }) ∧
    (s.part ≠ .idle → s.beforeAccept = false →
      (s.log.length ≤ index.toNat → exec (.release index) s = .next { s with attn := .badIndex }) ∧
      (s.log[index.toNat]? = some none → exec (.release index) s = .next { s with attn := .notFound }) ∧
      (∀ h, s.log[index.toNat]? = some (some h) →
        ∃ t, exec (.release index) s = .next t ∧ (s.accepted = true → t.statusDue = true) ∧
          StatusOnly { s with
            attn := .accepted, log := s.log.set index.toNat none,
            writeQueue := s.writeQueue ++ [⟨.release, [⟨s.logAddr index.toNat, [0, 0, 0, 0]⟩]⟩] } t))

/-! ## Part states -/

/-- START is taken in IDLE: an anchor address that is no multiple of 128 ends it with ALIGN, else LOADING is entered
and the anchor block is read (R183, R184). Elsewhere it is ignored. The anchor block address is the two registers as
one 64-bit address, and it is aligned when its low seven bits are 0 (R180, R183). -/
def Obligations.StartEntersLoading : Prop :=
  (∀ s : State,
    (s.part ≠ .idle → exec .start s = .next s) ∧
    (s.part = .idle → s.anchorAddr.toNat % 128 = 0 →
      exec .start s = .next { s with
        part := .loading, loading := some .anchor, accepted := false, loadQueue := [],
        anchorRead := .outstanding }) ∧
    (s.part = .idle → s.anchorAddr.toNat % 128 ≠ 0 →
      exec .start s = .next { s with
        part := .idle, loading := none, accepted := false, loadQueue := [], anchorRead := .idle,
        loadResult := .badAnchor, anchorCause := some .align, dirty := [], statusDue := false, spacing := none })) ∧
  (∀ s : State, s.anchorAddr.toNat = s.anchorHi.toNat * 2 ^ 32 + s.anchorLo.toNat ∧
    (s.anchorAddr.toNat % 128 = 0 ↔ s.anchorLo &&& 0x7F = 0))

/-- STOP in RUNNING enters QUIESCING: every pending slot ends STOPPED, in rising post mark, every ACTIVE standing order
ends STOPPED, and the part's other state stays (R158, R185). STOP in LOADING ends the LOADING and does the same, before
acceptance by way of IDLE where nothing waits (R185). That the DONE writes of the pending slots precede those of the
standing orders is the model's choice (assumption log 40). Outside RUNNING and LOADING it is ignored. -/
def Obligations.StopEntersQuiescing : Prop :=
  ∀ s : State,
    (s.part ≠ .running → s.part ≠ .loading → exec .stop s = .next s) ∧
    (s.part = .running → s.accepted = true → s.seqsOk →
      ∃ t, exec .stop s = .next t ∧ t.part = .quiescing ∧ PostsStopped s t ∧
        (∀ p ∈ s.posted, s.doneEntry p.slot none false .stopped ∈ t.writeQueue) ∧
        StandingStopped s t ∧
        (∀ c ∈ s.contexts, (∀ o p, c.phase = .active o p → o.standing = false) → c ∈ t.contexts) ∧
        s.writeQueue <+: t.writeQueue ∧
        { t with part := s.part, posted := s.posted, contexts := s.contexts, writeQueue := s.writeQueue,
                 spacing := s.spacing } = s) ∧
    (s.part = .loading → ∃ t, exec .stop s = .next t ∧ t.loading = none ∧ t.anchorRead = .idle ∧
      LoadReq.start ∉ t.loadQueue ∧ (∀ ld, t.load = some ld → ld.req ≠ .start) ∧ PostsStopped s t ∧
      (∀ p ∈ s.posted, s.doneEntry p.slot none false .stopped ∈ t.writeQueue) ∧ s.writeQueue <+: t.writeQueue ∧
      (s.seqsOk → StandingStopped s t) ∧
      (s.seqsOk → ∀ c ∈ s.contexts, (∀ o p, c.phase = .active o p → o.standing = false) → c ∈ t.contexts) ∧
      (s.accepted = true → t.part = .quiescing) ∧
      (s.accepted = false → s.contexts = [] → s.writeQueue = [] → s.posted = [] → t.part = .idle) ∧
      t.links = s.links ∧ t.rows = s.rows ∧ t.planBase = s.planBase ∧ t.anchor = s.anchor ∧ t.hostMem = s.hostMem)

/-- RESUME in FAULTED goes back to the state that was left; slot reads, the plan read and the anchor read that faulted
are made again (R25, R153, R184, R186). Elsewhere it is ignored. -/
def Obligations.ResumeGoesBack : Prop :=
  ∀ s : State,
    (s.part ≠ .faulted → exec .resume s = .next s) ∧
    ∀ p, s.part = .faulted → s.resume = some p →
      (p ≠ .quiescing ∨ s.contexts ≠ [] ∨ s.writeQueue ≠ [] ∨ s.accepted = true →
        ∃ t, exec .resume s = .next t ∧
          StatusOnly { s with
            part := p, resume := none,
            contexts := s.contexts.map fun c => if c.phase = .reading true then { c with phase := .reading false } else c,
            load := s.load.map fun ld => { ld with reading := true },
            anchorRead := if s.anchorRead = .faulted then .outstanding else s.anchorRead } t) ∧
      (p = .quiescing → s.contexts = [] → s.writeQueue = [] → s.accepted = false →
        ∃ t, exec .resume s = .next t ∧ t.part = .idle ∧ t.resume = none)

/-- CP_RESET, in any part state, clears the orders, the log, the notices and the fault, and aborts self-checks; links,
rows, the anchor in effect, the take sequence, the counters and the uptime stay (R188). Of the write in progress the
step in issue finishes, where it was issued (R13): a record write is ended at its step, and of a write queue entry the
model takes the first step as the one in issue (assumption log 6). -/
def Obligations.ControlResetKeepsTheLinks : Prop :=
  ∀ s : State, s.enginesOk → ∃ t, exec .cpReset s = .next t ∧
    t.part = .idle ∧ t.resume = none ∧ t.attn = .none ∧ t.loading = none ∧ t.load = none ∧ t.loadQueue = [] ∧
    t.posted = [] ∧ t.postMark = 0 ∧ t.contexts = [] ∧ t.writeQueue = [] ∧ t.dirty = [] ∧
    (∀ l b g body st n i ended, s.writing = some (.record l b g body st n i ended) →
      t.writing = some (.record l b g body st false i true)) ∧
    (∀ w ws, s.writing = some (.queue (w :: ws)) → t.writing = some (.finishing w)) ∧
    (∀ w, s.writing = some (.finishing w) → t.writing = some (.finishing w)) ∧
    (s.writing = none → t.writing = none) ∧ t.retry = none ∧
    t.notices = 0 ∧ t.coalesce = 0 ∧ t.holdoff = none ∧ t.faultAddr = 0 ∧ t.faultKind = .none ∧
    t.faultSource = .none ∧ t.multiple = false ∧ t.statusDue = false ∧
    t.log = List.replicate s.log.length none ∧ (∀ l : LinkId, t.lastWritten[l] = none) ∧
    t.rows = s.rows ∧ t.planBase = s.planBase ∧ t.anchor = s.anchor ∧ t.accepted = s.accepted ∧
    t.loadResult = s.loadResult ∧ t.anchorCause = s.anchorCause ∧
    t.anchorLo = s.anchorLo ∧ t.anchorHi = s.anchorHi ∧ t.noticeEnable = s.noticeEnable ∧ t.takeSeq = s.takeSeq ∧
    t.uptime = s.uptime ∧ t.statusGen = s.statusGen ∧ t.ordersTaken = s.ordersTaken ∧
    t.ordersCompleted = s.ordersCompleted ∧ t.droppedPosts = s.droppedPosts ∧ t.hostMem = s.hostMem ∧
    (∀ e, (∀ c, (t.engine e).owner ≠ some (.self c)) ∧ ∀ w ∈ (t.engine e).waiting, w.who.isSelf = false) ∧
    (∀ l, (∀ c, (s.engine (engineOfLink l)).owner ≠ some (.self c)) → t.link l = s.link l) ∧
    (∀ l c, (s.engine (engineOfLink l)).owner = some (.self c) → c.port = portOf l →
      (t.link l).record.selfCheck = false)

/-! ## Anchor, plan and rows -/

/-- The anchor read returns (R183, R184): left behind, it is discarded, the model taking the next return for it
(assumption log 16); a memory error is a bus fault; a block that a check refuses ends LOADING with BAD_ANCHOR and its cause; an accepted one is in effect, with a FREE log, its clearing
writes queued, in the model before a status block entry of the same step (assumption log 40), and the START load asked
for. A link that converses restarts when the own tag has changed (R2); every
other link stays. -/
def Obligations.AnchorReadIsJudged : Prop :=
  ∀ s : State,
    (∀ data, 0 < s.staleAnchorReads →
      exec (.anchorReadDone data) s = .next { s with staleAnchorReads := s.staleAnchorReads - 1 }) ∧
    (∀ data, s.staleAnchorReads = 0 → s.anchorRead ≠ .outstanding → exec (.anchorReadDone data) s = .next s) ∧
    (s.staleAnchorReads = 0 → s.anchorRead = .outstanding → s.part = .loading →
      (∃ t, exec (.anchorReadDone none) s = .next t ∧ t.part = .faulted ∧ t.resume = some .loading ∧
        t.anchorRead = .faulted ∧ t.loading = s.loading ∧
        (s.notices &&& Notice.busFault = 0 → t.faultAddr = s.anchorAddr ∧ t.faultKind = .readError ∧
          t.faultSource = .anchorRead ∧ t.multiple = false ∧ t.notices = s.notices ||| Notice.busFault)) ∧
      (∀ bs c, judgeAnchor bs.toList = .error c →
        exec (.anchorReadDone (some bs)) s = .next { s with
          part := .idle, loading := none, anchorRead := .idle, loadResult := .badAnchor, anchorCause := some c,
          dirty := [], statusDue := false, spacing := none }) ∧
      (∀ bs a, judgeAnchor bs.toList = .ok a → ∃ t, exec (.anchorReadDone (some bs)) s = .next t ∧
        t.part = .loading ∧ t.anchor = some a ∧ t.accepted = true ∧ t.loadResult = .ok ∧ t.anchorCause = none ∧
        t.anchorRead = .idle ∧ t.loading = some .plan ∧ t.loadQueue = [.start] ∧
        t.log = List.replicate a.logLength none ∧
        (s.writeQueue ++ (List.range a.logLength).map fun n =>
          (⟨.clear, [⟨a.logBase.toNat + 48 * n, List.replicate 48 0⟩]⟩ : QEntry)) <+: t.writeQueue ∧
        t.rows = s.rows ∧ t.hostMem = s.hostMem ∧ t.contexts = s.contexts ∧
        ∀ l, if tagsDiffer s.anchor a ∧ (s.link l).record.state.conversing then
            (t.link l).record.state = .listen ∧ (t.link l).record.prev = (s.link l).record.state ∧
            (t.link l).record.retries = 0 ∧ (t.link l).record.lastReason = .planRestart ∧
            (t.link l).bye = some ⟨.plan, 2⟩ ∧ l ∈ t.dirty
          else t.link l = s.link l))

/-- An anchor block that is accepted names a chassis, and its values lie in their ranges: no host data reaches the
part outside them (R127, R183). A row that is VALID has leg 1 only under HALF, and its legs' values lie in their
ranges, with a tag that names an end where and only where the kind is SPECIFIC (R19, R21, R22). -/
def Obligations.HostDataIsClamped : Prop :=
  (∀ (bs : List Byte) (a : Anchor), judgeAnchor bs = .ok a →
    a.chassis ≠ 0 ∧ a.winLow.toNat < a.winHigh.toNat ∧ 1 ≤ a.slotCount ∧ a.slotCount ≤ 64 ∧ 4 ≤ a.logLength ∧
    a.logLength ≤ 32 ∧ 1 ≤ a.trigger ∧ a.trigger ≤ 64 ∧ a.holdoff ≤ 255 ∧
    (∀ r ∈ [(a.orderBase, a.slotCount * 128), (a.planBase, 2048), (a.recordBase, 6144), (a.logBase, a.logLength * 48),
      (a.statusBase, 64)],
      r.1.toNat % 64 = 0 ∧ a.winLow.toNat ≤ r.1.toNat ∧ r.1.toNat + r.2 ≤ a.winHigh.toNat) ∧
    ∀ i : Fin 4, a.classes[i].pass ≤ 480 ∧ a.classes[i].marginal ≤ a.classes[i].pass ∧
      1 ≤ a.classes[i].units ∧ a.classes[i].units ≤ 16384 ∧ a.classes[i].skewLimit ≤ 255 ∧
      1 ≤ a.classes[i].burst ∧ a.classes[i].burst ≤ 65535) ∧
  (∀ (bs : List Byte) (r : PlanRow), rowValue bs = .valid r →
    (r.leg1.isSome ↔ r.split = .half) ∧
    ∀ p, (p = r.leg0 ∨ r.leg1 = some p) →
      p.retryLimit ≤ 7 ∧ p.priority ≤ 7 ∧ (∀ x ∈ p.length, x.1 ≤ 4095 ∧ x.2 ≤ 4095) ∧
      (p.tag.isSome ↔ p.kind = .specific) ∧ ∀ t ∈ p.tag, t.named = true)

/-- LOAD_BEGIN takes the head of the queue of loads where none is in progress and the part works; the rows of its
scope are to be read in rising number from its base, the first at once (R25, R34, R36, R37). Else nothing changes. A
plan row read returns (R20, R21): torn at the first or second read of its row, it is read again, of the last or only
row of a load too. Of a row that is not the last its value is set aside, INVALID TORN after three torn reads. A row's
value is taken by R21. One that a CONTROL command left behind is discarded (R185, R188), the model taking the next
return for it (assumption log 16); data that return while the part is FAULTED are taken, and the next read waits
(assumption log 41). A plan row read that the memory refuses ends its load and is a bus fault at the
row's address; no row changes. An order's load is reported, a START load is to be made again (R26, R184). -/
def Obligations.LoadsReadTheirRows : Prop :=
  (∀ s : State,
    (s.load ≠ none ∨ s.loadQueue = [] ∨ s.part = .faulted ∨ s.part = .idle → exec .loadBegin s = .next s) ∧
    ∀ req rest, s.load = none → s.loadQueue = req :: rest → s.part ≠ .faulted → s.part ≠ .idle →
      ∃ base, exec .loadBegin s = .next { s with
          loadQueue := rest, load := some ⟨req, base, req.scope.rows, 0, [], true⟩ } ∧
        (∀ a, req = .start → s.anchor = some a → base = a.planBase) ∧
        (∀ ref b, req = .adopt ref b → base = b) ∧
        (∀ ref sc b, req = .refresh ref sc → s.planBase = some b → base = b)) ∧
  (∀ (s : State) (data : Option (Vector Byte 64)),
    (0 < s.stalePlanReads → exec (.planRowReadDone data) s = .next { s with stalePlanReads := s.stalePlanReads - 1 }) ∧
    (s.stalePlanReads = 0 → s.load = none → exec (.planRowReadDone data) s = .next s) ∧
    ∀ ld p rest bs, s.stalePlanReads = 0 → s.load = some ld → ld.reading = true → ld.todo = p :: rest →
      data = some bs →
      (bs[0] ≠ bs[63] → ld.tries < 2 → exec (.planRowReadDone data) s = .next
        { s with load := some { ld with tries := ld.tries + 1, reading := decide (s.part ≠ .faulted) } }) ∧
      ∀ q more, rest = q :: more → (bs[0] = bs[63] ∨ 2 ≤ ld.tries) → exec (.planRowReadDone data) s = .next
        { s with load := some { ld with
            todo := q :: more, tries := 0, reading := decide (s.part ≠ .faulted),
            aside := ld.aside ++ [(p, if bs[0] ≠ bs[63] then .invalid .torn else rowValue bs.toList)] } }) ∧
  (∀ (s : State) (ld : Load) (p : PortId) (rest : List PortId), s.stalePlanReads = 0 → s.load = some ld →
    ld.reading = true → ld.todo = p :: rest → s.part ∈ [PartState.loading, .running, .quiescing] →
    ∃ t, exec (.planRowReadDone none) s = .next t ∧ t.part = .faulted ∧ t.resume = some s.part ∧ t.load = none ∧
      t.rows = s.rows ∧ t.links = s.links ∧ t.planBase = s.planBase ∧
      (s.notices &&& Notice.busFault = 0 → t.faultAddr = BitVec.ofNat 64 (ld.base.toNat + 64 * p.val) ∧
        t.faultKind = .readError ∧ t.faultSource = .planRead ∧ t.multiple = false ∧
        t.notices = s.notices ||| Notice.busFault) ∧
      (ld.req = .start → t.loadQueue = .start :: s.loadQueue ∧ t.loadReports = s.loadReports) ∧
      (∀ ref base, ld.req = .adopt ref base → t.loadQueue = s.loadQueue ∧
        t.loadReports = s.loadReports ++ [⟨ref, false, none, 0, 0⟩]) ∧
      (∀ ref sc, ld.req = .refresh ref sc → t.loadQueue = s.loadQueue ∧
        t.loadReports = s.loadReports ++ [⟨ref, false, some sc, 0, 0⟩]))

/-- The last row of a load is read, whole or torn a third time (R20), in any part state: that a row read in flight at a
fault of another source is taken when it returns, so that the load applies in FAULTED, is the model's reading
(assumption log 41). Every row of the scope takes its new value at once, every changed row goes to its links as one
event, and no link's record changes before it takes that event, but for the lane map and the pilot lane of a link in
PAIRING that a change of split leaves without observations (R24, R25, R34 to R37, R93, R95). LOADING goes on from
a START load once its links have taken every changed row, at once where there is none (R14, R184; assumption log 56 and,
of a status block entry that waits already, 68). A
link in PAIRING whose port changes split keeps the length of its lane map until it takes the event, which is the model's
reading (assumption log 53), and the clearing of its observations is not evaluated (assumption log 54). A
scope LINK widens to PORT when the row is not VALID before and after, or its enable or split differs; else it takes the
fields of its leg alone, and none for the leg-1 link of a WHOLE port, whose row stays as it is. Every other scope takes
its rows as read (R34, R35). -/
def Obligations.LoadsApplyAllRowsAtOnce : Prop :=
  (∀ (s : State) (ld : Load) (p : PortId) (bs : Vector Byte 64), s.stalePlanReads = 0 → s.load = some ld →
    ld.reading = true → ld.todo = [p] → ld.aside.map (·.1) ++ [p] = ld.req.scope.rows →
    ∀ v sc rows, ((bs[0] = bs[63] ∧ v = rowValue bs.toList) ∨ (bs[0] ≠ bs[63] ∧ ld.tries = 2 ∧ v = .invalid .torn)) →
      s.newRows ld.req.scope (ld.aside ++ [(p, v)]) = (sc, rows) →
      ∃ t, exec (.planRowReadDone (some bs)) s = .next t ∧ t.load = none ∧
        (∀ r ∈ rows, t.row r.1 = r.2) ∧ (∀ q, (∀ r ∈ rows, r.1 ≠ q) → t.row q = s.row q) ∧
        (∀ r ∈ rows, r.2 ≠ s.row r.1 → ∀ l ∈ sc.links r.1,
          (t.link l).inbox = (s.link l).inbox ++ [.rowChange ⟨s.row r.1, r.2⟩]) ∧
        (∀ r ∈ rows, r.2.split ≠ s.splitOf r.1 → ∀ l, portOf l = r.1 → (t.link l).obs = Bank.fill 8 none) ∧
        (∀ l, (∀ r ∈ rows, r.1 = portOf l → r.2 = s.row r.1) → t.link l = s.link l) ∧
        (∀ l, (∀ r ∈ rows, r.1 = portOf l → r.2.split = s.splitOf r.1) ∨ (s.link l).record.state ≠ .pairing →
          (t.link l).record = (s.link l).record) ∧
        (∀ r ∈ rows, r.2.split ≠ s.splitOf r.1 → ∀ l, portOf l = r.1 → (s.link l).record.state = .pairing →
          (s.link l).record.laneMap.length ≤ 8 →
          (t.link l).record = { (s.link l).record with
            laneMap := (s.link l).record.laneMap.map fun _ => none, pilot := none } ∧
          (s.part ≠ .idle → (t.link l).record ≠ (s.link l).record → l ∈ t.dirty)) ∧
        (∀ ref x, ld.req = .refresh ref x → t.planBase = s.planBase ∧ t.loadReports = s.loadReports ++
          [⟨ref, true, some sc, (rows.filter fun r => !decide (s.row r.1 = r.2)).length,
            (rows.filter fun r => r.2.bad).length⟩]) ∧
        (∀ ref b, ld.req = .adopt ref b → t.planBase = some b ∧ t.loadReports = s.loadReports ++
          [⟨ref, true, some sc, (rows.filter fun r => !decide (s.row r.1 = r.2)).length,
            (rows.filter fun r => r.2.bad).length⟩]) ∧
        (ld.req = .start → t.planBase = some ld.base ∧ ∃ u, u.loading = some .reconciling ∧ u.part = s.part ∧
          u.writeQueue = s.writeQueue ∧ u.writing = s.writing ∧ s.dirty <+: u.dirty ∧ u.links = t.links ∧
          LoadGoesOn u t)) ∧
  (∀ (s : State) (n : LinkId) (v : RowState),
    (∀ o r, s.row (portOf n) = .valid o → v = .valid r → o.enable = r.enable → o.split = r.split →
      (o.leg1.isSome ↔ o.split = .half) → (r.leg1.isSome ↔ r.split = .half) → (legOf n = 1 → o.split = .half) →
      ∃ w, s.newRows (.link n) [(portOf n, v)] = (.link n, [(portOf n, .valid w)]) ∧ w.enable = o.enable ∧
        w.split = o.split ∧ (RowState.valid w).leg (legOf n) = v.leg (legOf n) ∧
        (RowState.valid w).leg (1 - legOf n) = (s.row (portOf n)).leg (1 - legOf n)) ∧
    (∀ o r, s.row (portOf n) = .valid o → v = .valid r → o.enable = r.enable → o.split = r.split → o.split = .whole →
      o.leg1 = none → legOf n = 1 → s.newRows (.link n) [(portOf n, v)] = (.link n, [(portOf n, s.row (portOf n))])) ∧
    ((∀ o r, s.row (portOf n) = .valid o → v = .valid r → o.enable ≠ r.enable ∨ o.split ≠ r.split) →
      s.newRows (.link n) [(portOf n, v)] = (.port (portOf n), [(portOf n, v)])) ∧
    (∀ (sc : Scope) (aside : List (PortId × RowState)), (∀ k, sc ≠ .link k) → s.newRows sc aside = (sc, aside)))

/-- ROW_CHANGE takes the oldest event of the link where it is a row change, by the first case of R27 that applies: a
row disabled or INVALID stops the link (R28), a row that becomes usable restarts it (R27, R28), a change of class
restarts a link in bring-up (R32), and retries used never stays above the new limit (R33). That every link of an
INVALID row takes last reason PLAN_ROW_INVALID, one that was NOT PRESENT too, is the model's reading (assumption log
18). Changes of split and of policy are the next statement's. In LOADING the last changed row of the plan lets the 64
links enter the dirty set and queues the status block entry, for which one that waits already stands (R14, R184; assumption
log 56 and 68). -/
def Obligations.RowChangeReconciles : Prop :=
  ∀ (s : State) (l : LinkId) (d : RowDelta) (rest : List SeqEvent), (s.link l).inbox = .rowChange d :: rest →
    s.row (portOf l) = d.new →
    ∃ t, exec (.rowChange l) s = .next t ∧ (∃ u, OnlyLink l s u ∧ LoadGoesOn u t) ∧ rest <+: (t.link l).inbox ∧
      (∀ p, d.new.leg (legOf l) = some p → (t.link l).record.retries ≤ p.retryLimit) ∧
      ((∃ r, d.new = .valid r ∧ r.enable = false ∧ d.old.enabled? ≠ some false) →
        (t.link l).record.state = .off ∧
        ((s.link l).record.state ≠ .off → (t.link l).record.lastReason = .planDisabled) ∧
        ((s.link l).record.state.conversing → (s.env l).present → (t.link l).bye = some ⟨.plan, 2⟩)) ∧
      (∀ cause, d.new = .invalid cause → (t.link l).record.state = .off ∧
        (t.link l).record.lastReason = .disc .planRowInvalid ∧
        (legOf l = 0 → (t.link l).toLog = (s.link l).toLog ++
          [⟨.planRowInvalid, BitVec.ofNat 32 cause.code, none, none, (s.link l).record.farExpect, s.uptime⟩])) ∧
      ((∃ r, d.new = .valid r ∧ r.enable = true ∧ d.old.enabled? ≠ some true) → (s.env l).present = true →
        (s.link l).record.adminDown = false → (s.link l).record.selfCheck = false →
        (t.link l).record.state = .listen ∧ (t.link l).record.lastReason = .planRestart ∧
        (t.link l).record.retries = 0) ∧
      (d.case (legOf l) = .cls → (s.link l).record.state ∈ [LinkState.pairing, .verify, .train, .qualify] →
        (t.link l).record.state = .listen ∧ (t.link l).record.lastReason = .planRestart) ∧
      (d.case (legOf l) ∈ [RowCase.cls, .nothing] → (s.link l).record.state ∈ [LinkState.off, .listen, .up, .backoff, .held] →
        (t.link l).record = { (s.link l).record with retries := (t.link l).record.retries })

/-- ROW_CHANGE of a row whose split or whose leg's policy changed (R27). A change of split stops the link and starts it
again under the new widths (R28, R29). A change of policy (R31) restarts a link in PAIRING to QUALIFY, re-verifies a
link in UP against the checks of R30, which under ENFORCE refuses the cable at the first that fails and under REPORT
keeps UP, restarts a link held for a plan reason that passes or that REPORT accepts, and leaves every other link in
HELD, OFF and BACKOFF. Kind NONE restarts a link in UP and one held for a plan reason; in LISTEN it cancels the presence
deadline, and a kind that leaves NONE starts it. That an admin-down link that becomes NOT PRESENT keeps its last reason
is the model's reading (assumption log 19). Each change of split, also one after which a second load has changed the row
again, leaves the lists of the record absent, at the length of the effective split, and a leg-1 link that is NOT PRESENT
under the new split or under the effective one with no BYE copy, queued page or page in progress (R4), which split
counts being the model's choice (assumption log 66). In LOADING the last changed row of the plan lets the 64 links enter
the dirty set (R14, R184; assumption log 56). -/
def Obligations.PolicyAndSplitChangesReconcile : Prop :=
  (∀ (s : State) (l : LinkId) (d : RowDelta) (rest : List SeqEvent), (s.link l).inbox = .rowChange d :: rest →
    s.row (portOf l) = d.new →
    ∃ t, exec (.rowChange l) s = .next t ∧ (∃ u, OnlyLink l s u ∧ LoadGoesOn u t) ∧
      (d.case (legOf l) = .split →
        (t.link l).record.laneMap = List.replicate (s.env l).width none ∧
        (t.link l).record.deskew = List.replicate (s.env l).width none ∧
        (t.link l).record.laneLmis = List.replicate (s.env l).width none ∧
        ((s.link l).record.adminDown = true → (t.link l).record.state = .off ∧
          (t.link l).record.lastReason = (s.link l).record.lastReason) ∧
        ((s.link l).record.adminDown = false → (s.env l).present = true → (s.link l).record.selfCheck = false →
          (t.link l).record.state = .listen ∧ (t.link l).record.prev = .off ∧ (t.link l).record.retries = 0 ∧
          (t.link l).record.lastReason = .planRestart ∧ (t.link l).gate = false ∧
          ((s.link l).record.state.conversing = true → (t.link l).bye = some ⟨.plan, 2⟩)) ∧
        ((s.link l).record.adminDown = false → (s.env l).present = false →
          (t.link l).record.state = .off ∧ (t.link l).record.lastReason = .planDisabled)) ∧
      ∀ o p, d.case (legOf l) = .policy → d.old.leg (legOf l) = some o → d.new.leg (legOf l) = some p →
        ((s.link l).record.state ∈ [LinkState.pairing, .verify, .train, .qualify] →
          (t.link l).record.state = .listen ∧ (t.link l).record.prev = (s.link l).record.state ∧
          (t.link l).record.retries = 0 ∧ (t.link l).record.lastReason = .planRestart ∧
          (t.link l).bye = some ⟨.plan, 2⟩) ∧
        ((s.link l).record.state ∈ [LinkState.off, .backoff] ∨ ((s.link l).record.state = .held ∧
            (s.link l).record.lastReason ≠ .disc .unexpectedNeighbour ∧
            (s.link l).record.lastReason ≠ .disc .laneOrder ∧ (s.link l).record.lastReason ≠ .disc .length) →
          (t.link l).record = { (s.link l).record with retries := min (s.link l).record.retries p.retryLimit }) ∧
        ((s.link l).record.state = .up →
          (p.kind = .none → (t.link l).record.state = .listen ∧ (t.link l).record.lastReason = .planRestart ∧
            (t.link l).gate = false ∧ (t.link l).bye = some ⟨.plan, 2⟩) ∧
          (p.kind ≠ .none →
            ((∀ k, ¬(s.link l).record.fails p k) → (t.link l).toLog = (s.link l).toLog ∧
              (t.link l).record = { (s.link l).record with retries := min (s.link l).record.retries p.retryLimit }) ∧
            (∀ k, (s.link l).record.fails p k → ∃ x ∈ (t.link l).toLog, x.kind = k ∧ x.time = s.uptime ∧
              (∀ n, k = .unexpectedNeighbour → (s.link l).record.neighbour = some n → x.detail = n.tag.pack) ∧
              (∀ m, k = .length → (s.link l).record.length = some m → x.detail = BitVec.ofNat 32 m)) ∧
            (∀ k, (s.link l).record.failsFirst p k →
              (p.strict = .enforce → (t.link l).record.state = .held ∧ (t.link l).record.prev = .up ∧
                (t.link l).record.lastReason = .disc k ∧ (t.link l).bye = some ⟨.refused, 2⟩ ∧
                (t.link l).gate = false) ∧
              (p.strict = .report → (t.link l).record.state = .up ∧ (t.link l).gate = (s.link l).gate)))) ∧
        ((s.link l).record.state = .held → (s.link l).record.selfCheck = false →
          (s.link l).record.lastReason ∈
            [Reason.disc .unexpectedNeighbour, .disc .laneOrder, .disc .length] →
          (p.kind = .none ∨ (∀ k, ¬(s.link l).record.fails p k) ∨ p.strict = .report →
            (t.link l).record.state = .listen ∧ (t.link l).record.prev = .held ∧
            (t.link l).record.exhausted = false ∧ (t.link l).record.retries = 0 ∧
            (t.link l).record.lastReason = .planRestart) ∧
          (∀ k, p.kind ≠ .none → p.strict = .enforce → (s.link l).record.failsFirst p k →
            (t.link l).record.state = .held ∧ (t.link l).record.lastReason = .disc k ∧
            ∃ x ∈ (t.link l).toLog, x.kind = k)) ∧
        ((s.link l).record.state = .listen →
          (t.link l).record = { (s.link l).record with retries := min (s.link l).record.retries p.retryLimit } ∧
          (o.kind = p.kind → (t.link l).timers = (s.link l).timers) ∧
          (o.kind ≠ .none → p.kind = .none → (t.link l).timers.presence = none) ∧
          (o.kind = .none → p.kind ≠ .none → (t.link l).timers.presence = some 2000000000) ∧
          (o.kind ≠ p.kind → (t.link l).stage.heard = false))) ∧
  (∀ (s : State) (l : LinkId) (d : RowDelta) (rest : List SeqEvent), (s.link l).inbox = .rowChange d :: rest →
    d.old.split ≠ d.new.split → d.new ≠ .absent →
    ∃ t, exec (.rowChange l) s = .next t ∧ (∃ u, OnlyLink l s u ∧ LoadGoesOn u t) ∧
      (t.link l).record.laneMap = List.replicate (s.env l).width none ∧
      (t.link l).record.deskew = List.replicate (s.env l).width none ∧
      (t.link l).record.laneLmis = List.replicate (s.env l).width none ∧
      (legOf l = 1 → d.new.split = .whole ∨ s.splitOf (portOf l) = .whole →
        (t.link l).bye = none ∧ (t.link l).tx = [] ∧ (t.link l).sending = none ∧
        (d.case (legOf l) = .split → (t.link l).record.state = .off)))

/-! ## Orders -/

/-- TAKE takes the pending entry of highest priority, and of those the one of lowest post mark, into a free context in
READING with the next take sequence (R150, R152). Outside RUNNING, with no entry or no free context, nothing changes.
-/
def Obligations.TakeChoosesHighestThenOldest : Prop :=
  ∀ s : State,
    (s.part ≠ .running ∨ 16 ≤ s.contexts.length ∨ s.posted = [] → exec .take s = .next s) ∧
    (s.part = .running → s.contexts.length < 16 → s.posted ≠ [] →
      ∃ p ∈ s.posted, (∀ q ∈ s.posted, q.prio ≤ p.prio) ∧
        (∀ r ∈ s.posted, (∀ q ∈ s.posted, q ≠ r → q.prio < r.prio ∨
          (q.prio = r.prio ∧ 0 < (q.mark - r.mark).toNat ∧ (q.mark - r.mark).toNat < 2 ^ 31)) → r = p) ∧
        exec .take s = .next { s with
          posted := s.posted.filter fun q => !decide (q.slot = p.slot), takeSeq := s.takeSeq + 1,
          contexts := s.contexts ++ [⟨p.slot, p.prio, s.takeSeq + 1, .reading false⟩] })

/-- The checks of R153 in their order: the slot's state word, the kind with its parameters, the priority, the
destination. What passes them has its parameters in range (R161, R163, R172, R174, R175, R177). -/
def Obligations.TakenOrdersAreInRange : Prop :=
  ∀ (s : State) (bs : List Byte) (prio : Nat),
    (s.fateOf bs prio = .drop ↔ field bs 0 1 ≠ 1) ∧
    (field bs 0 1 = 1 → (s.orderAt bs = none ∨ field bs 5 1 ≠ prio ↔ s.fateOf bs prio = .refuse .badOrder)) ∧
    (∀ o, s.fateOf bs prio = .run o → s.orderAt bs = some o ∧ field bs 5 1 = prio) ∧
    (∀ m k base count, s.fateOf bs prio = .run (.watch m k base count) →
      m ≠ 0 ∧ (k.state || k.discrepancy || k.verdict) = true ∧ base.toNat % 16 = 0 ∧ 1 ≤ count ∧ count ≤ 1024 ∧
        s.inWindow base.toNat (16 * count) = true) ∧
    (∀ m k base count, s.orderAt bs = some (.watch m k base count) → field bs 0 1 = 1 → field bs 5 1 = prio →
      s.inWindow base.toNat (16 * count) = false → s.fateOf bs prio = .refuse .badRegion) ∧
    (∀ o, s.orderAt bs = some o → match o with
      | .adoptPlan base => base.toNat % 64 = 0 ∧ s.inWindow base.toNat 2048 = true
      | .refresh _ => field bs 4 1 = 2
      | .bringUp m => m ≠ 0
      | .takeDown m => m ≠ 0
      | .requalify l => l.val = field bs 16 1
      | .selfCheck p u t => p.val = field bs 16 1 ∧ 1 ≤ u ∧ u ≤ 16384 ∧ t ≤ 480
      | .locate p => p.chassis ≠ some 0
      | .watch m _ _ _ => m ≠ 0
      | .await m st tmo _ => m ≠ 0 ∧ st ≠ 0 ∧ 1 ≤ tmo ∧ tmo ≤ 65535
      | .fence _ => field bs 4 1 = 10)

/-- A slot read that returns data of a refused order: TAKEN and then DONE with its status are queued, with no result,
and its context enters CLOSING (R153), standing for a FENCE by the kind code of its slot (assumption
log 20). Its DONE word is an ordinary completion, also that of a refused FENCE with NOTIFY, which is the model's reading
(assumption log 49). One that the memory refuses is a bus fault, and is made again on RESUME. A read
of no context in READING is discarded (R188), a read being known by its take sequence (assumption log 16). A slot whose state word is not POSTED is dropped (R153): its context is
free, nothing is written to it, and dropped posts counts it. A FENCE in flight that waits for it waits for it no more,
and ends OK where it then waits for none; every other order stays as it is, and with no FENCE in flight nothing else
changes but the status block (R179). In QUIESCING, where it was the last order and the write queue is
empty, the status block entry of the count is queued, or the IDLE one where the count waits for the spacing, or IDLE is
entered where no anchor has been accepted (R185, R193). -/
def Obligations.RefusedTakesEndAtOnce : Prop :=
  (∀ (s : State) (c : Ctx), s.seqsOk → c ∈ s.contexts → c.phase = .reading false →
    (∀ bs st, s.fateOf bs.toList c.prio = .refuse st →
      ∃ t, exec (.slotReadDone c.seq (some bs)) s = .next t ∧
        t.writeQueue.filter (fun q => !q.kind.isStatus) =
          s.writeQueue.filter (fun q => !q.kind.isStatus) ++
            [⟨.taken, [⟨s.slotAddr c.slot + 8, leBytes 4 c.seq.toNat⟩, ⟨s.slotAddr c.slot, [2, 0, 0, 0]⟩]⟩,
             ⟨.done c.slot (some c.seq) false, [⟨s.slotAddr c.slot, [3, BitVec.ofNat 8 st.code, 0, 0]⟩]⟩] ∧
        t.contexts = (s.contexts.map fun d =>
          if d.seq = c.seq then { d with phase := .closing st (slotStanding bs.toList) } else d) ∧
        { t with writeQueue := s.writeQueue, contexts := s.contexts, statusDue := s.statusDue, spacing := s.spacing,
                 ordersTaken := s.ordersTaken } = s ∧
        t.ordersTaken = s.ordersTaken + 1) ∧
    (s.part ∈ [PartState.running, .quiescing] → ∃ t, exec (.slotReadDone c.seq none) s = .next t ∧
      t.part = .faulted ∧ t.resume = some s.part ∧
      t.contexts = (s.contexts.map fun d => if d.seq = c.seq then { d with phase := .reading true } else d) ∧
      t.links = s.links ∧ t.posted = s.posted ∧ t.hostMem = s.hostMem ∧
      (s.notices &&& Notice.busFault = 0 → t.faultAddr = BitVec.ofNat 64 (s.slotAddr c.slot) ∧
        t.faultKind = .readError ∧ t.faultSource = .slotRead ∧ t.multiple = false)) ∧
    (∀ q data, (∀ d ∈ s.contexts, d.seq = q → d.phase ≠ .reading false) →
      exec (.slotReadDone q data) s = .next s)) ∧
  (∀ (s : State) (c : Ctx) (bs : Vector Byte 128), s.seqsOk → c ∈ s.contexts → c.phase = .reading false → bs[0] ≠ 1 →
    s.part ≠ .quiescing ∨ s.writeQueue ≠ [] ∨ (∃ d ∈ s.contexts, d.seq ≠ c.seq) →
    ∃ t, exec (.slotReadDone c.seq (some bs)) s = .next t ∧
      ((∀ d ∈ s.contexts, ∀ o left n, d.phase ≠ .active o (.fencing left n)) → StatusOnly { s with
        droppedPosts := s.droppedPosts + 1, contexts := s.contexts.filter fun d => !decide (d.seq = c.seq) } t) ∧
      t.droppedPosts = s.droppedPosts + 1 ∧ s.writeQueue <+: t.writeQueue ∧
      (s.accepted = true → s.part ≠ .idle → t.statusDue = true) ∧
      t.contexts.map (·.seq) = (s.contexts.map (·.seq)).filter (fun q => !decide (q = c.seq)) ∧
      (∀ d ∈ s.contexts, d.seq ≠ c.seq → (∀ o left n, d.phase ≠ .active o (.fencing left n)) → d ∈ t.contexts) ∧
      (∀ d ∈ s.contexts, ∀ o left n, d.phase = .active o (.fencing left n) →
        if ∀ k ∈ left, k = c.seq then { d with phase := .closing .ok o.standing } ∈ t.contexts ∧
            s.resultEntry d.slot (byte1 n) ∈ t.writeQueue ∧
            s.doneEntry d.slot (some d.seq) o.notify .ok ∈ t.writeQueue
        else { d with phase := .active o (.fencing (left.filter fun k => !decide (k = c.seq)) n) } ∈ t.contexts) ∧
      { t with contexts := s.contexts, writeQueue := s.writeQueue, droppedPosts := s.droppedPosts,
               statusDue := s.statusDue, spacing := s.spacing } = s) ∧
  (∀ (s : State) (c : Ctx) (bs : Vector Byte 128), s.contexts = [c] → c.phase = .reading false → bs[0] ≠ 1 →
    s.part = .quiescing → s.accepted = false → s.writeQueue = [] →
    exec (.slotReadDone c.seq (some bs)) s = .next { s with
      droppedPosts := s.droppedPosts + 1, contexts := [], part := .idle, dirty := [], statusDue := false,
      spacing := none }) ∧
  (∀ (s : State) (c : Ctx) (bs : Vector Byte 128), s.contexts = [c] → c.phase = .reading false → bs[0] ≠ 1 →
    s.part = .quiescing → s.accepted = true → s.writeQueue = [] → s.writing = none →
    ∃ t, exec (.slotReadDone c.seq (some bs)) s = .next t ∧ t.part = .quiescing ∧
      t.writeQueue = [⟨.status (if s.spacing = none then .plain else .idle), []⟩] ∧
      { t with writeQueue := s.writeQueue, statusDue := s.statusDue, spacing := s.spacing } =
        { s with droppedPosts := s.droppedPosts + 1, contexts := [] })

/-- An order that passes its checks becomes ACTIVE (R153): TAKEN is queued, it is counted, and its work is handed
over: BRING_UP, TAKE_DOWN and AWAIT to each link of the mask, REQUALIFY to its link, SELF_CHECK to the present links of
its port, ADOPT_PLAN and REFRESH to the queue of loads (R162 to R170, R172, R177). LOCATE ends at once with the links
that match (R174), by the state that each record shows, also of a link just made NOT PRESENT (LIVE, the model's choice,
assumption log 63). A WATCH waits for events (R175). A standing order made ACTIVE while the part quiesces ends at once
with STOPPED, its result and its DONE after its TAKEN (R158), in the model also in FAULTED with resume state QUIESCING
(assumption log 33). A FENCE waits for the earlier takes in flight that are
non-standing or still in READING, and ends at once where there is none (R179); a take whose order was refused counts
among them by the kind code of its slot, which is the model's reading (assumption log 20). A FENCE in flight that waits
for an order that becomes ACTIVE as WATCH or AWAIT waits for it no more, and ends where it then waits for none; any
other order leaves it as it is (R179). -/
def Obligations.ActiveOrdersHandOverTheirWork : Prop :=
  ∀ (s : State) (c : Ctx) (bs : Vector Byte 128) (o : Order), s.seqsOk → c ∈ s.contexts → c.phase = .reading false →
    s.fateOf bs.toList c.prio = .run o →
    ∃ t, exec (.slotReadDone c.seq (some bs)) s = .next t ∧ t.ordersTaken = s.ordersTaken + 1 ∧
      ⟨.taken, [⟨s.slotAddr c.slot + 8, leBytes 4 c.seq.toNat⟩, ⟨s.slotAddr c.slot, [2, 0, 0, 0]⟩]⟩ ∈ t.writeQueue ∧
      (∀ d ∈ s.contexts, d.seq ≠ c.seq →
        o.standing = false ∨ (∀ f left n, d.phase ≠ .active f (.fencing left n)) → d ∈ t.contexts) ∧
      (o.standing = true → ∀ d ∈ s.contexts, ∀ f left n, d.phase = .active f (.fencing left n) →
        if ∀ k ∈ left, k = c.seq then { d with phase := .closing .ok f.standing } ∈ t.contexts ∧
            s.resultEntry d.slot (byte1 n) ∈ t.writeQueue ∧
            s.doneEntry d.slot (some d.seq) f.notify .ok ∈ t.writeQueue
        else { d with phase := .active f (.fencing (left.filter fun k => !decide (k = c.seq)) n) } ∈ t.contexts) ∧
      (o.standing = true → s.quiescing = true → { c with phase := .closing .stopped true } ∈ t.contexts ∧
        [s.takenEntry c, s.resultEntry c.slot (s.standingResult o (s.beginProgress c.seq o)),
          s.doneEntry c.slot (some c.seq) false .stopped].Sublist t.writeQueue) ∧
      t.posted = s.posted ∧ t.rows = s.rows ∧ t.log = s.log ∧ t.engines = s.engines ∧ t.hostMem = s.hostMem ∧
      (∀ l, (t.link l).record = (s.link l).record) ∧
      match o with
      | .adoptPlan base => t.loadQueue = s.loadQueue ++ [.adopt c.seq base] ∧ t.links = s.links ∧
          { c with phase := .active o .atWork } ∈ t.contexts
      | .refresh sc => t.loadQueue = s.loadQueue ++ [.refresh c.seq sc] ∧ t.links = s.links ∧
          { c with phase := .active o .atWork } ∈ t.contexts
      | .bringUp m => (∀ l, t.link l = if m.getLsbD l.val then
            { s.link l with inbox := (s.link l).inbox ++ [.bringUp c.seq] } else s.link l) ∧
          { c with phase := .active o (.asking (maskLinks m) 0) } ∈ t.contexts
      | .takeDown m => (∀ l, t.link l = if m.getLsbD l.val then
            { s.link l with inbox := (s.link l).inbox ++ [.takeDown c.seq] } else s.link l) ∧
          { c with phase := .active o (.asking (maskLinks m) 0) } ∈ t.contexts
      | .requalify k => (∀ l, t.link l = if l = k then
            { s.link l with inbox := (s.link l).inbox ++ [.requalify c.seq c.prio] } else s.link l) ∧
          { c with phase := .active o .atWork } ∈ t.contexts
      | .selfCheck p _ _ => (∀ l, t.link l = if portOf l = p ∧ (s.env l).present then
            { s.link l with inbox := (s.link l).inbox ++ [.stateQuery c.seq] } else s.link l) ∧
          { c with phase := .active o (.asking (s.presentLinks p) 0) } ∈ t.contexts
      | .locate p => t.links = s.links ∧
          s.resultEntry c.slot (locateResult ((allBelow 64).filter fun l => p.hits (s.link l).record)) ∈ t.writeQueue ∧
          s.doneEntry c.slot (some c.seq) false .ok ∈ t.writeQueue ∧
          { c with phase := .closing .ok false } ∈ t.contexts
      | .watch .. => t.links = s.links ∧
          (s.quiescing = false → { c with phase := .active o (.written 0) } ∈ t.contexts)
      | .await m _ tmo _ =>
          (s.quiescing = false → (∀ l, t.link l = if m.getLsbD l.val then
              { s.link l with inbox := (s.link l).inbox ++ [.stateQuery c.seq] } else s.link l) ∧
            { c with phase := .active o (.viewing (maskLinks m) [] (some (tmo * 1000000))) } ∈ t.contexts) ∧
          (s.quiescing = true → t.links = s.links)
      | .fence _ => t.links = s.links ∧
          ((∀ d ∈ s.contexts, earlier d.seq c.seq = true → d.fenceable = false) →
            { c with phase := .closing .ok false } ∈ t.contexts) ∧
          ((∃ d ∈ s.contexts, earlier d.seq c.seq = true ∧ d.fenceable = true) →
            { c with phase := .active o (.fencing (s.fenceRecords c.seq) (s.fenceRecords c.seq).length) } ∈ t.contexts)

/-- LINK_ANSWER takes the link's oldest answer (R162). BRING_UP and TAKE_DOWN end when every link of the mask has
answered, with the links that acted as result, BRING_UP as PARTIAL where one did not (R168, R169); a REQUALIFY whose
link was not in UP is NOT_PERMITTED (R170), as is a SELF_CHECK with a link that is in neither OFF nor HELD, and with
all in it asks its engine (R172). An answer for a context that has ended is discarded. -/
def Obligations.LinkAnswersReachTheirOrder : Prop :=
  ∀ (s : State) (l : LinkId) (ref : Word) (a : Answer) (rest : List OrdMsg), s.seqsOk →
    (s.link l).toOrder = .answer ref a :: rest →
    let s' := s.putLink l { s.link l with toOrder := rest }
    ((∀ c ∈ s.contexts, c.seq = ref → ∀ o p, c.phase ≠ .active o p) → exec (.linkAnswer l) s = .next s') ∧
    ∀ c ∈ s.contexts, c.seq = ref →
      (∀ o m waiting acted yes, c.phase = .active o (.asking waiting acted) → (o = .bringUp m ∨ o = .takeDown m) →
        a = .acted yes →
        (∀ acted', acted' = (if yes then acted ||| (1 : Addr) <<< l.val else acted) →
          ((∃ k ∈ waiting, k ≠ l) → exec (.linkAnswer l) s = .next
            (s'.setPhase ref (.active o (.asking (waiting.filter fun w => !decide (w = l)) acted')))) ∧
          ((∀ k ∈ waiting, k = l) → exec (.linkAnswer l) s = .next { s' with
            writeQueue := s.writeQueue ++ [s.resultEntry c.slot (leBytes 8 acted'.toNat),
              s.doneEntry c.slot (some ref) false (if o = .bringUp m ∧ acted' ≠ m then .partialDone else .ok)],
            contexts := s.contexts.map fun d => if d.seq = ref then
              { d with phase := .closing (if o = .bringUp m ∧ acted' ≠ m then .partialDone else .ok) false }
              else d }))) ∧
      (∀ k st, c.phase = .active (.requalify k) .atWork → a = .state st →
        exec (.linkAnswer l) s = .next { s' with
          writeQueue := s.writeQueue ++ [s.resultEntry c.slot [BitVec.ofNat 8 st.code],
            s.doneEntry c.slot (some ref) false .notPermitted],
          contexts := s.contexts.map fun d => if d.seq = ref then { d with phase := .closing .notPermitted false } else d }) ∧
      (∀ port units threshold waiting acted st,
        c.phase = .active (.selfCheck port units threshold) (.asking waiting acted) → a = .state st →
        (st ≠ .off → st ≠ .held → exec (.linkAnswer l) s = .next { s' with
          writeQueue := s.writeQueue ++ [s.resultEntry c.slot [], s.doneEntry c.slot (some ref) false .notPermitted],
          contexts := s.contexts.map fun d => if d.seq = ref then { d with phase := .closing .notPermitted false } else d }) ∧
        (st = .off ∨ st = .held → (∀ k ∈ waiting, k = l) → exec (.linkAnswer l) s = .next
          { s'.setPhase ref (.active (.selfCheck port units threshold) .atWork) with
            selfRequests := s.selfRequests ++ [⟨ref, port, units, threshold, c.prio⟩] }))

/-- The state an AWAIT is told of: with every link in, ANY is met by one link in the set, else all are wanted; a met
AWAIT ends OK with the links in the set (R177, R178). A NOT PRESENT link counts as OFF (R177), in the model also between
the apply stage that makes its port WHOLE and its ROW_CHANGE (assumption log 63). A REQUALIFY ends when its link leaves QUALIFY, LINK_LOST where
no final verdict was reached (R171), and its lane count is the length of the list of LMIs at the departure, the old width
up to the ROW_CHANGE of a change of split, which is the model's choice (assumption log 53); ADOPT_PLAN and REFRESH end with their load, BUS_FAULT where it faulted (R162 to
R166); an AWAIT whose timeout expires ends TIMEOUT with the links in its set (R178). Each queues its result and its
DONE. -/
def Obligations.OrdersEndByReports : Prop :=
  (∀ (s : State) (l : LinkId) (c : Ctx) (m : Addr) (sts : BitVec 9) (tmo : Nat) (any : Bool) (waiting : List LinkId)
    (view : List (LinkId × LinkState)) (timer : Timer) (st : LinkState) (rest : List OrdMsg),
    s.seqsOk → c ∈ s.contexts → c.phase = .active (.await m sts tmo any) (.viewing waiting view timer) →
    (s.link l).toOrder = .answer c.seq (.state st) :: rest →
    ∃ t, exec (.linkAnswer l) s = .next t ∧
      (∀ waiting' view' here, waiting' = waiting.filter (fun w => !decide (w = l)) → view' = viewSet view l st →
        here = linksMask (((s.awaitView view').filter fun v => sts.getLsbD v.2.code).map (·.1)) →
        if waiting' = [] ∧ (if any then here ≠ 0 else here = m) then
          t = { s.putLink l { s.link l with toOrder := rest } with
            writeQueue := s.writeQueue ++ [s.resultEntry c.slot (leBytes 8 here.toNat),
              s.doneEntry c.slot (some c.seq) false .ok],
            contexts := s.contexts.map fun d => if d.seq = c.seq then { d with phase := .closing .ok true } else d }
        else t = (s.putLink l { s.link l with toOrder := rest }).setPhase c.seq
          (.active (.await m sts tmo any) (.viewing waiting' view' timer)))) ∧
  (∀ (s : State) (c : Ctx) (o : Order) (p : Progress), s.seqsOk → c ∈ s.contexts → c.phase = .active o p →
    (∀ l k q rest, o = .requalify k → (s.link l).toOrder = .requalDone c.seq q :: rest →
      exec (.requalifyOutcome l) s = .next { s.putLink l { s.link l with toOrder := rest } with
        writeQueue := s.writeQueue ++ [s.resultEntry c.slot (requalResult q),
          s.doneEntry c.slot (some c.seq) false (if q.finalV = none then .linkLost else .ok)],
        contexts := s.contexts.map fun d => if d.seq = c.seq then
          { d with phase := .closing (if q.finalV = none then .linkLost else .ok) false } else d }) ∧
    (∀ r rest, s.loadReports = r :: rest → r.ref = c.seq → (∃ base, o = .adoptPlan base) →
      exec .loadEndReport s = .next { s with
        loadReports := rest,
        writeQueue := s.writeQueue ++ [s.resultEntry c.slot (byte1 r.changed ++ byte1 r.bad),
          s.doneEntry c.slot (some c.seq) false (if r.applied then .ok else .busFault)],
        contexts := s.contexts.map fun d => if d.seq = c.seq then
          { d with phase := .closing (if r.applied then .ok else .busFault) false } else d }) ∧
    (∀ r rest sc, s.loadReports = r :: rest → r.ref = c.seq → r.scope = some sc → (∃ asked, o = .refresh asked) →
      exec .loadEndReport s = .next { s with
        loadReports := rest,
        writeQueue := s.writeQueue ++ [s.resultEntry c.slot
            (byte1 sc.codes.1 ++ byte1 sc.codes.2 ++ byte1 r.changed ++ byte1 r.bad),
          s.doneEntry c.slot (some c.seq) false (if r.applied then .ok else .busFault)],
        contexts := s.contexts.map fun d => if d.seq = c.seq then
          { d with phase := .closing (if r.applied then .ok else .busFault) false } else d }) ∧
    (∀ m sts tmo any waiting view timer, o = .await m sts tmo any → p = .viewing waiting view timer →
      exec (.awaitTimeout c.seq) s = .next { s with
        writeQueue := s.writeQueue ++ [s.resultEntry c.slot
            (leBytes 8 (linksMask (((s.awaitView view).filter fun v => sts.getLsbD v.2.code).map (·.1))).toNat),
          s.doneEntry c.slot (some c.seq) false .timeout],
        contexts := s.contexts.map fun d => if d.seq = c.seq then { d with phase := .closing .timeout true } else d }))

/-- LINK_EVENT offers the link's oldest event to every ACTIVE standing order (R157): a WATCH that selects its link and
its kind queues one entry at the next place of its array, and ends OK with its count when the array is full; a WATCH
that does not select it stays as it is, and so does one that was in READING when the event happened (R175, R176). An
event that happened before the order's take and arrives while it is ACTIVE is recorded, the arrival deciding by R157,
which is the model's reading (assumption log 48). A STATE event of a link that has answered changes the view
of an AWAIT that selects it, which then checks its condition where every link is in, a NOT PRESENT link counting as OFF,
and only keeps the new view while it waits for an answer (R177, R178; before the ROW_CHANGE of a NOT PRESENT link the
model's choice, assumption log 63). An event of another kind, of a link still waited for, or of a link outside its mask
leaves it as it is (R177). -/
def Obligations.WatchesRecordEvents : Prop :=
  ∀ (s : State) (l : LinkId) (ev : LinkEvt) (rest : List OrdMsg), s.seqsOk →
    (s.link l).toOrder = .event ev :: rest →
    ∃ t, exec (.linkEvent l) s = .next t ∧ t.links = (s.putLink l { s.link l with toOrder := rest }).links ∧
      { t with links := s.links, contexts := s.contexts, writeQueue := s.writeQueue } = s ∧
      s.writeQueue <+: t.writeQueue ∧
      (∀ c ∈ s.contexts, (∀ o p, c.phase = .active o p → o.standing = false) → c ∈ t.contexts) ∧
      (∀ c ∈ s.contexts, ∀ m kinds base count n, c.phase = .active (.watch m kinds base count) (.written n) →
        ((m.getLsbD l.val && kinds.selects ev.body) = false ∨ c.seq ∈ ev.reading → c ∈ t.contexts) ∧
        ((m.getLsbD l.val && kinds.selects ev.body) = true → c.seq ∉ ev.reading →
          ⟨.watch, [⟨base.toNat + 16 * n,
            byte1 l.val ++ byte1 ev.body.code ++ [0, 0] ++ leBytes 4 ev.body.values.1 ++ leBytes 4 ev.body.values.2 ++
              leBytes 4 ev.time.toNat⟩]⟩ ∈ t.writeQueue ∧
          (n + 1 ≠ count → { c with phase := .active (.watch m kinds base count) (.written (n + 1)) } ∈ t.contexts) ∧
          (n + 1 = count → { c with phase := .closing .ok true } ∈ t.contexts ∧
            s.resultEntry c.slot (leBytes 2 count) ∈ t.writeQueue ∧
            s.doneEntry c.slot (some c.seq) false .ok ∈ t.writeQueue))) ∧
      (∀ c ∈ s.contexts, ∀ m sts tmo any waiting view timer,
        c.phase = .active (.await m sts tmo any) (.viewing waiting view timer) →
        (∀ entered left, ev.body ≠ .state entered left) ∨ l ∈ waiting ∨ m.getLsbD l.val = false → c ∈ t.contexts) ∧
      ∀ c ∈ s.contexts, ∀ m sts tmo any waiting view timer entered left,
        c.phase = .active (.await m sts tmo any) (.viewing waiting view timer) → ev.body = .state entered left →
        m.getLsbD l.val = true → l ∉ waiting →
        ∀ here, here = linksMask (((s.awaitView (viewSet view l entered)).filter fun v => sts.getLsbD v.2.code).map (·.1)) →
          if waiting = [] ∧ (if any then here ≠ 0 else here = m) then
            { c with phase := .closing .ok true } ∈ t.contexts ∧
              s.resultEntry c.slot (leBytes 8 here.toNat) ∈ t.writeQueue ∧
              s.doneEntry c.slot (some c.seq) false .ok ∈ t.writeQueue
          else { c with phase := .active (.await m sts tmo any) (.viewing waiting (viewSet view l entered) timer) } ∈
            t.contexts

/-! ## The Record Writer and the reports -/

/-- WRITER_BEGIN takes the dirty set and the write queue in turn, the source of a faulted write first, and the one
that has work where the other has none (R15). A record write samples the link at the head of the dirty set and issues
its first step (R12, R14), with the length of the record's lists as lane count (R195), the old width until the ROW_CHANGE
of a change of split, which is the model's choice (assumption log 53); a queue entry issues its steps. A first step outside the result window is not issued: it is
a WINDOW fault (R13, R140, R190). In IDLE, in FAULTED, before acceptance, while a write is in progress and with no
work none begins. -/
def Obligations.WriterTakesItsSourcesInTurn : Prop :=
  ∀ s : State,
    (s.writing ≠ none ∨ s.part = .idle ∨ s.part = .faulted ∨ s.accepted = false ∨ (s.dirty = [] ∧ s.writeQueue = []) →
      exec .writerBegin s = .next s) ∧
    (s.writing = none → s.part ≠ .idle → s.part ≠ .faulted → s.accepted = true →
      (∀ l rest, s.dirty = l :: rest →
        (s.writeQueue = [] ∨ s.retry = some .dirtySet ∨ (s.retry = none ∧ s.lastSource = .queue)) →
        (s.inWindow (s.recordAddr l) 2 = true → exec .writerBegin s = .next { s with
          dirty := rest, lastSource := .dirtySet, retry := none,
          writing := some (.record l (s.recordAddr l) (s.link l).record.generation (s.link l).record.body
            (s.link l).record.state (decide (l ∈ s.awaited)) 0 false) }) ∧
        (s.inWindow (s.recordAddr l) 2 = false → ∃ t, exec .writerBegin s = .next t ∧ t.writing = none ∧
          t.dirty = l :: rest.filter (fun k => !decide (k = l)) ∧ t.retry = some .dirtySet ∧ t.part = .faulted ∧
          t.resume = some s.part ∧ t.hostMem = s.hostMem ∧ t.links = s.links ∧
          (s.notices &&& Notice.busFault = 0 → t.faultAddr = BitVec.ofNat 64 (s.recordAddr l) ∧
            t.faultKind = .window ∧ t.faultSource = .recordWrite ∧ t.multiple = false))) ∧
      (∀ q rest w steps, s.writeQueue = q :: rest →
        (s.dirty = [] ∨ s.retry = some .queue ∨ (s.retry = none ∧ s.lastSource = .dirtySet)) →
        s.entrySteps q = w :: steps →
        (s.inWindow w.addr w.bytes.length = true → exec .writerBegin s = .next { s with
          lastSource := .queue, retry := none, writing := some (.queue (w :: steps)),
          statusDue := if q.kind.isStatus then false else s.statusDue }) ∧
        (s.inWindow w.addr w.bytes.length = false → ∃ t, exec .writerBegin s = .next t ∧ t.writing = none ∧
          t.retry = some .queue ∧ t.part = .faulted ∧ t.resume = some s.part ∧ t.hostMem = s.hostMem ∧
          s.writeQueue <+: t.writeQueue ∧
          (s.notices &&& Notice.busFault = 0 → t.faultAddr = BitVec.ofNat 64 w.addr ∧
            t.faultKind = .window ∧ t.faultSource = .queueWrite ∧ t.multiple = false))))

/-- RECORD_WRITE_STEP_DONE (R12, R13, R16, R184): the odd generation lands, then the body, then the even generation,
each where the write was issued; with the last the record's generation is g + 2, and LINK_CHANGE becomes pending where
the state it carried differs from the last-written one. So it does in every part state: that a write in progress goes
on to its end where a fault of a read has made the part FAULTED meanwhile is the model's reading (assumption log 47).
In LOADING the last record write that stage 4 awaits, after
its other writes, makes the part RUNNING, with a status block entry queued (R193). A step that the memory refuses, and
one that lies outside the window, which is not issued, end the write as a fault, with the link back at the head of the
dirty set (R190). Of a write that CP_RESET has ended the step in issue lands, no step follows, and an error is not
taken (R190); one in its third step completes (assumption log 6). -/
def Obligations.RecordWritesLandInThreeSteps : Prop :=
  ∀ (s : State) (l : LinkId) (b : Nat) (g : BitVec 16) (body : List Byte) (st : LinkState) (counts : Bool),
    (∀ err, (∀ k a g x st c i e, s.writing ≠ some (.record k a g x st c i e)) →
      exec (.recordWriteStepDone err) s = .next s) ∧
    (s.writing = some (.record l b g body st counts 0 false) → s.inWindow (b + 2) body.length = true →
      exec (.recordWriteStepDone false) s = .next { s with
        hostMem := Memory.write s.hostMem b (leBytes 2 (g + 1).toNat),
        writing := some (.record l b g body st counts 1 false) }) ∧
    (s.writing = some (.record l b g body st counts 1 false) → s.inWindow b 2 = true →
      exec (.recordWriteStepDone false) s = .next { s with
        hostMem := Memory.write s.hostMem (b + 2) body,
        writing := some (.record l b g body st counts 2 false) }) ∧
    (∀ ended, s.writing = some (.record l b g body st counts 2 ended) →
      ∃ t, exec (.recordWriteStepDone false) s = .next t ∧ t.writing = none ∧
        t.hostMem = Memory.write s.hostMem b (leBytes 2 (g + 2).toNat) ∧
        t.link l = { s.link l with record := { (s.link l).record with generation := g + 2 } } ∧
        (∀ k, k ≠ l → t.link k = s.link k) ∧ t.lastWritten[l] = some st ∧
        (∀ k : LinkId, k ≠ l → t.lastWritten[k] = s.lastWritten[k]) ∧ t.dirty = s.dirty ∧
        s.writeQueue <+: t.writeQueue ∧
        t.notices = (if s.lastWritten[l] = none ∨ s.lastWritten[l] = some st then s.notices
          else s.notices ||| Notice.linkChange) ∧
        (s.part ≠ .loading → t.part = s.part ∧ t.writeQueue = s.writeQueue) ∧
        (∀ ls landed, s.part = .loading → counts = true → s.loading = some (.completing ls landed) →
          ((∀ k ∈ ls, k = l) → landed = true → (∀ q ∈ s.writeQueue, q.kind ≠ .clear) →
            t.part = .running ∧ t.loading = none ∧ (s.accepted = true → t.statusWaiting = true)) ∧
          ((∃ k ∈ ls, k ≠ l) ∨ landed = false ∨ (∃ q ∈ s.writeQueue, q.kind = .clear) →
            t.part = .loading ∧ t.loading = some (.completing (ls.filter fun k => !decide (k = l)) landed)))) ∧
    (∀ (i : Fin 3) (err : Bool) (k : FaultKind) (addr : Nat) (m : List Host.Cell),
      s.writing = some (.record l b g body st counts i false) →
      s.part ∈ [PartState.loading, .running, .quiescing] →
      ((err = true ∧ k = .writeError ∧ addr = b + (if i = 1 then 2 else 0) ∧ m = s.hostMem) ∨
        (err = false ∧ k = .window ∧ i = 0 ∧ s.inWindow (b + 2) body.length = false ∧ addr = b + 2 ∧
          m = Memory.write s.hostMem b (leBytes 2 (g + 1).toNat)) ∨
        (err = false ∧ k = .window ∧ i = 1 ∧ s.inWindow b 2 = false ∧ addr = b ∧
          m = Memory.write s.hostMem (b + 2) body)) →
      ∃ t, exec (.recordWriteStepDone err) s = .next t ∧ t.writing = none ∧ t.hostMem = m ∧
        t.links = s.links ∧ t.dirty = l :: s.dirty.filter (fun k => !decide (k = l)) ∧ t.retry = some .dirtySet ∧
        t.part = .faulted ∧ t.resume = some s.part ∧
        (s.notices &&& Notice.busFault = 0 → t.faultAddr = BitVec.ofNat 64 addr ∧
          t.faultKind = k ∧ t.faultSource = .recordWrite ∧ t.multiple = false)) ∧
    (∀ i : Fin 3, s.writing = some (.record l b g body st counts i true) →
      exec (.recordWriteStepDone true) s = .next { s with writing := none } ∧
      (i ≠ 2 → exec (.recordWriteStepDone false) s = .next { s with
        writing := none,
        hostMem := if i = 0 then Memory.write s.hostMem b (leBytes 2 (g + 1).toNat)
          else Memory.write s.hostMem (b + 2) body }))

/-- QUEUE_WRITE_DONE (R140): an entry whose steps all lie in the window lands whole and leaves the queue, in every part
state, in FAULTED by the model's reading (assumption log 47); what its landing brings is its kind's: DISCREPANCY for an
allocation (R192), the status block's generation (R193), a DONE word below. Where it was the last write that LOADING
awaits, the part becomes RUNNING, with a status block entry queued (R184, R193); where it leaves the queue of a part in
QUIESCING empty with every context free, the status block entry carrying IDLE is queued, or IDLE is entered where no
anchor has been accepted (R185). A step that the memory refuses, and one outside the window, end it as a fault with the
entry still at the head (R190); a status block entry then counts as not begun again, and is the one that waits (R193),
which is the model's reading (assumption log 51). That one command ends all the steps of an entry, and that its operand
is the index of the step that the memory refuses, none meaning no error, is the model's choice (assumption log 6). What
CP_RESET let finish, in the model the first step of the entry (assumption log 6), lands with no other effect, a DONE
word too, and its error is not taken (R13, R190). LOADING ends in RUNNING when its status write lands as the last write it awaits (R184), QUIESCING
in IDLE when the IDLE status write lands with every context free and the queue otherwise empty (R185). -/
def Obligations.QueueEntriesLandWhole : Prop :=
  (∀ (s : State) (steps : List WStep) (q : QEntry) (rest : List QEntry), s.writing = some (.queue steps) →
    s.writeQueue = q :: rest →
    ((∀ w ∈ steps, s.inWindow w.addr w.bytes.length = true) →
      (q.kind ∈ [QKind.taken, .result, .watch, .collapse, .release, .clear, .alloc, .status .plain, .status .idle] ∨
        (q.kind = .status .loading ∧ s.loading = none)) →
      let s' : State := { s with
        writing := none, writeQueue := rest,
        hostMem := steps.foldl (fun m w => Memory.write m w.addr w.bytes) s.hostMem,
        notices := if q.kind = .alloc then s.notices ||| Notice.discrepancy else s.notices,
        statusGen := if q.kind.isStatus = true then s.statusGen + 2 else s.statusGen }
      ((s.part = .loading → s.loading ≠ some (.completing [] true) ∨ ∃ x ∈ rest, x.kind = .clear) →
        (s.part = .quiescing → s.contexts ≠ [] ∨ rest ≠ []) →
        ∃ t, exec (.queueWriteDone none) s = .next t ∧ { t with messages := s.messages } = s') ∧
      (s.part = .loading → s.loading = some (.completing [] true) → (∀ x ∈ rest, x.kind ≠ .clear) →
        ∃ t, exec (.queueWriteDone none) s = .next t ∧ t.part = .running ∧ t.loading = none ∧ rest <+: t.writeQueue ∧
          (s.accepted = true → t.statusWaiting = true) ∧
          { t with messages := s.messages, part := s.part, loading := s.loading, writeQueue := rest,
                   spacing := s.spacing } = s') ∧
      (s.part = .quiescing → s.contexts = [] → rest = [] → q.kind ≠ .status .idle →
        ∃ t, exec (.queueWriteDone none) s = .next t ∧
          (s.accepted = true → t.writeQueue = [⟨.status .idle, []⟩] ∧ t.spacing = some 10000000 ∧
            { t with messages := s.messages, writeQueue := [], spacing := s.spacing } = s') ∧
          (s.accepted = false → { t with messages := s.messages } =
            { s' with part := .idle, dirty := [], statusDue := false, spacing := none }))) ∧
    (∀ before w after err k, s.part ≠ .idle → steps = before ++ w :: after →
      (∀ x ∈ before, s.inWindow x.addr x.bytes.length = true) →
      ((k = .writeError ∧ err = some before.length ∧ s.inWindow w.addr w.bytes.length = true) ∨
        (k = .window ∧ (∀ n, err = some n → before.length ≤ n) ∧ s.inWindow w.addr w.bytes.length = false)) →
      ∃ t, exec (.queueWriteDone err) s = .next t ∧ t.part = .faulted ∧
        t.resume = (if s.part = .faulted then s.resume else some s.part) ∧
        t.writing = none ∧ t.retry = some .queue ∧
        t.hostMem = before.foldl (fun m w => Memory.write m w.addr w.bytes) s.hostMem ∧
        (q.kind.isStatus = false → (q :: rest) <+: t.writeQueue) ∧
        (∀ m, q.kind = .status m → ∃ m', t.writeQueue =
            ⟨.status m', q.steps⟩ :: rest.filter (fun x => !x.kind.isStatus) ∧
          ((∀ x ∈ rest, x.kind.isStatus = false) → m' = m)) ∧
        (s.notices &&& Notice.busFault = 0 → t.faultAddr = BitVec.ofNat 64 w.addr ∧
          t.faultKind = k ∧ t.faultSource = .queueWrite ∧ t.multiple = false) ∧
        (s.notices &&& Notice.busFault ≠ 0 → t.faultAddr = s.faultAddr ∧ t.faultKind = s.faultKind ∧
          t.faultSource = s.faultSource ∧ t.multiple = true))) ∧
  (∀ (s : State) (err : Option Nat),
    (∀ w, s.writing = some (.finishing w) → exec (.queueWriteDone err) s = .next { s with
      writing := none,
      hostMem := if err = some 0 then s.hostMem else Memory.write s.hostMem w.addr w.bytes }) ∧
    ((∀ steps, s.writing ≠ some (.queue steps)) → (∀ w, s.writing ≠ some (.finishing w)) →
      exec (.queueWriteDone err) s = .next s)) ∧
  (∀ (s : State) (steps : List WStep) (m : StatusMark) (old : List WStep) (rest : List QEntry),
    s.writing = some (.queue steps) → s.writeQueue = ⟨.status m, old⟩ :: rest →
    (∀ w ∈ steps, s.inWindow w.addr w.bytes.length = true) →
    let s' : State := { s with
      writing := none, writeQueue := rest, statusGen := s.statusGen + 2,
      hostMem := steps.foldl (fun m w => Memory.write m w.addr w.bytes) s.hostMem }
    (∀ ls landed, m = .loading → s.loading = some (.completing ls landed) →
      (s.part = .loading → ls = [] → (∀ x ∈ rest, x.kind ≠ .clear) →
        ∃ t, exec (.queueWriteDone none) s = .next t ∧ t.part = .running ∧ t.loading = none ∧ rest <+: t.writeQueue ∧
          (s.accepted = true → t.statusWaiting = true) ∧
          { t with part := s.part, loading := s.loading, writeQueue := rest, spacing := s.spacing } = s') ∧
      (s.part ≠ .quiescing → (s.part = .loading → ls ≠ [] ∨ ∃ x ∈ rest, x.kind = .clear) →
        exec (.queueWriteDone none) s = .next { s' with loading := some (.completing ls true) })) ∧
    (m = .idle → rest = [] → s.part = .quiescing → s.contexts = [] →
      exec (.queueWriteDone none) s = .next
        { s' with part := .idle, dirty := [], statusDue := false, spacing := none }))

/-- A DONE word lands (R155, R179, R192), in every part state, in FAULTED by the model's reading (assumption log 47):
orders completed counts it, its context is free, no FENCE waits for it any more, and ORDER_DONE becomes pending at the
trigger, with holdoff 0, or for a FENCE with NOTIFY; else the holdoff timer restarts. The part state stays, but where it
was the last write that LOADING awaits (R184), and where in QUIESCING every context is then free and the write queue
empty: there the status block entry of the count is queued, or the IDLE one where the count waits for the spacing, or
IDLE is entered where no anchor has been accepted (R185, R193). -/
def Obligations.DoneWordsFreeTheirContext : Prop :=
  ∀ (s : State) (steps : List WStep) (slot : Nat) (ref : Option Word) (notify : Bool) (rest : List QEntry)
    (old : List WStep) (a : Anchor), s.writing = some (.queue steps) →
    s.writeQueue = ⟨.done slot ref notify, old⟩ :: rest → s.anchor = some a → s.seqsOk →
    (∀ w ∈ steps, s.inWindow w.addr w.bytes.length = true) →
    ∃ t, exec (.queueWriteDone none) s = .next t ∧ t.writing = none ∧ t.ordersCompleted = s.ordersCompleted + 1 ∧
      rest <+: t.writeQueue ∧ t.hostMem = steps.foldl (fun m w => Memory.write m w.addr w.bytes) s.hostMem ∧
      t.links = s.links ∧ t.log = s.log ∧ t.rows = s.rows ∧ t.posted = s.posted ∧
      (∀ q, ref = some q → ∀ d ∈ t.contexts, d.seq ≠ q) ∧
      (∀ d ∈ s.contexts, ref ≠ some d.seq → (∀ o left n, d.phase ≠ .active o (.fencing left n)) → d ∈ t.contexts) ∧
      (∀ q, ref = some q → ∀ d ∈ s.contexts, d.seq ≠ q → ∀ o left n, d.phase = .active o (.fencing left n) →
        if ∀ k ∈ left, k = q then { d with phase := .closing .ok o.standing } ∈ t.contexts ∧
            s.doneEntry d.slot (some d.seq) o.notify .ok ∈ t.writeQueue
        else { d with phase := .active o (.fencing (left.filter fun k => !decide (k = q)) n) } ∈ t.contexts) ∧
      (if notify ∨ a.trigger ≤ s.coalesce + 1 then
        t.coalesce = 0 ∧ t.holdoff = none ∧ t.notices = s.notices ||| Notice.orderDone
       else if a.holdoff = 0 then t.coalesce = 0 ∧ t.notices = s.notices ||| Notice.orderDone
       else t.coalesce = s.coalesce + 1 ∧ t.holdoff = some (a.holdoff * 100000) ∧ t.notices = s.notices) ∧
      (s.part ≠ .loading → s.part ≠ .quiescing → t.part = s.part) ∧
      (s.part = .loading →
        ((s.loading ≠ some (.completing [] true) ∨ ∃ x ∈ rest, x.kind = .clear) →
          t.part = .loading ∧ t.loading = s.loading) ∧
        (s.loading = some (.completing [] true) → (∀ x ∈ rest, x.kind ≠ .clear) →
          t.part = .running ∧ t.loading = none ∧ (s.accepted = true → t.statusWaiting = true))) ∧
      (s.part = .quiescing →
        (((∃ d ∈ s.contexts, ref ≠ some d.seq) ∨ rest ≠ []) → t.part = .quiescing) ∧
        ((∀ d ∈ s.contexts, ref = some d.seq) → rest = [] → t.contexts = [] ∧
          (s.accepted = true → t.part = .quiescing ∧
            t.writeQueue = [⟨.status (if s.spacing = none then .plain else .idle), []⟩]) ∧
          (s.accepted = false → t.part = .idle ∧ t.writeQueue = [] ∧ t.dirty = [])))

/-- DISCREPANCY_EVENT (R135 to R140): folded into the record its link holds; else the lowest FREE record takes it, its
fields written before its state word, and the model queues that write before the status block entry of the same step
(assumption log 40); else LOG_OVERFLOW. In IDLE, and before acceptance, it is not logged. -/
def Obligations.DiscrepanciesAreLogged : Prop :=
  ∀ (s : State) (l : LinkId) (d : Discrepancy) (rest : List Discrepancy), (s.link l).toLog = d :: rest →
    let s' := s.putLink l { s.link l with toLog := rest }
    (s.part = .idle ∨ s.accepted = false → exec (.discrepancyEvent l) s = .next s') ∧
    (s.part ≠ .idle → s.accepted = true →
      (∀ n h, s.log[n]? = some (some h) → h.link = l → (∀ k < n, ∀ x, s.log[k]? = some (some x) → x.link ≠ l) →
        exec (.discrepancyEvent l) s = .next { s' with
          log := s.log.set n (some { h with
            latest := d.kind, detail := d.detail, lastTime := d.time, expected := d.expected,
            observed := d.observed, far := d.far, count := min 255 (h.count + 1) }),
          writeQueue := s.writeQueue ++ [⟨.collapse, [⟨s.logAddr n + 4, HeldRec.body { h with
            latest := d.kind, detail := d.detail, lastTime := d.time, expected := d.expected,
            observed := d.observed, far := d.far, count := min 255 (h.count + 1) }⟩]⟩] }) ∧
      ((∀ x, some x ∈ s.log → x.link ≠ l) →
        (∀ n, s.log[n]? = some none → (∀ k < n, s.log[k]? ≠ some none) →
          ∃ t, exec (.discrepancyEvent l) s = .next t ∧ t.statusDue = true ∧ StatusOnly { s' with
            log := s.log.set n (some ⟨l, d.kind, d.kind, 1, d.expected, d.observed, d.far, d.detail, d.time, d.time⟩),
            writeQueue := s.writeQueue ++ [⟨.alloc, [⟨s.logAddr n + 4, HeldRec.body
                ⟨l, d.kind, d.kind, 1, d.expected, d.observed, d.far, d.detail, d.time, d.time⟩⟩,
              ⟨s.logAddr n, [1, 0, 0, 0]⟩]⟩] } t) ∧
        (none ∉ s.log → ∃ t, exec (.discrepancyEvent l) s = .next t ∧
          { t with messages := s.messages } = { s' with notices := s.notices ||| Notice.logOverflow })))

/-- HOLDOFF_EXPIRY announces the completions that wait (R192); STATUS_SPACING_END queues a status block that is due
(R193); UPTIME_TICK counts a millisecond, wraps, and touches no record, order or memory (R194). -/
def Obligations.ReportingTimersExpire : Prop :=
  ∀ s : State,
    (s.holdoff = none → exec .holdoffExpiry s = .next s) ∧
    (s.holdoff ≠ none → ∃ t, exec .holdoffExpiry s = .next t ∧
      { t with messages := s.messages } = { s with
        holdoff := none, coalesce := 0,
        notices := if s.coalesce = 0 then s.notices else s.notices ||| Notice.orderDone }) ∧
    (s.spacing = none → exec .statusSpacingEnd s = .next s) ∧
    (s.spacing ≠ none → s.statusDue = false → exec .statusSpacingEnd s = .next { s with spacing := none }) ∧
    (s.spacing ≠ none → s.statusDue = true → s.accepted = true → s.statusWaiting = false →
      exec .statusSpacingEnd s = .next { s with
        spacing := some 10000000, writeQueue := s.writeQueue ++ [⟨.status .plain, []⟩] }) ∧
    (s.spacing ≠ none → s.statusDue = true → s.accepted = false ∨ s.statusWaiting = true →
      exec .statusSpacingEnd s = .next { s with spacing := none }) ∧
    ∃ t, exec .uptimeTick s = .next t ∧ t.uptime.toNat = (s.uptime.toNat + 1) % 2 ^ 32 ∧
      (∀ l, (t.link l).record = (s.link l).record ∧ (t.link l).inbox = (s.link l).inbox ∧
        (t.link l).tx = (s.link l).tx ∧ (t.link l).rx = (s.link l).rx) ∧
      t.contexts.map (·.seq) = s.contexts.map (·.seq) ∧
      { t with uptime := s.uptime, links := s.links, engines := s.engines, contexts := s.contexts,
               holdoff := s.holdoff, spacing := s.spacing } = s

/-! ## The Page Link -/

/-- PAGE_ARRIVAL acts on the link whose leg owns the lane (R3, R41), under the effective split, also before a ROW_CHANGE
of a change of split (the model's choice, assumption log 67). A quiet link takes no page, and on a lane that is
not the pilot lane of a link that converses only beacons are taken. On the pilot lane a tagged page and a page of the
sequencer are stored, or, with 8 in the FIFO, counted as an overrun (R53); the store that brings the FIFO to 6 makes
HOLD owed where none is owed or in force, and cancels an owed RESUME (R55). HOLD, RESUME, ECHO_REQ and ECHO_REPLY act
at once (R41, R50, R57). Each untagged one restarts the peer-silent timer where it runs (R56, R64). -/
def Obligations.ArrivedPagesAreRouted : Prop :=
  ∀ (port : PortId) (lane : Lane) (a : Arrival) (s : State) (l : LinkId) (near : Lane),
    nearLane (s.splitOf port) lane = (legOf l, near) → portOf l = port →
    ∃ t, exec (.pageArrival port lane a) s = .next t ∧ OnlyLink l s t ∧
      ((s.link l).record.state ∈ [LinkState.off, .backoff, .held] → t.link l = s.link l) ∧
      ((s.link l).record.state.conversing = false ∨ (s.link l).record.pilot ≠ some near →
        (∀ p, judgePage a.framed a.bytes = .ok p → ∀ sp k, p.body ≠ .beacon sp k) → t.link l = s.link l) ∧
      ((s.link l).record.state.conversing = true → (s.link l).record.pilot = some near →
        (∀ entry timers,
          ((∃ tag, judgePage a.framed a.bytes = .error tag ∧ entry = .tagged tag a.bytes ∧
              timers = (s.link l).timers) ∨
            (∃ p, judgePage a.framed a.bytes = .ok p ∧ (p.body = .trainReady ∨ p.body = .trained ∨ p.body = .requal ∨
              p.body = .keepalive ∨ (∃ r, p.body = .bye r) ∨ (∃ w, p.body = .qualReady w) ∨
              (∃ v n, p.body = .qualResult v n) ∨ (∃ sp k st tag u b, p.body = .ident sp k st tag u b)) ∧
              entry = .untagged p ∧ timers = ((s.link l).touchSilent).timers)) →
          ((s.link l).rx.length < 8 → t.link l = { s.link l with
            timers := timers, rx := (s.link l).rx ++ [entry],
            owedFlow :=
              if (s.link l).rx.length ≠ 5 then (s.link l).owedFlow
              else if (s.link l).owedFlow = some .resume then none
              else if (s.link l).holdForce = none then some .hold else (s.link l).owedFlow }) ∧
          (8 ≤ (s.link l).rx.length → t.link l = { s.link l with
            timers := timers,
            record := { (s.link l).record with overruns := min 65535 ((s.link l).record.overruns + 1) } })) ∧
        (∀ p, judgePage a.framed a.bytes = .ok p →
          (p.body = .hold → t.link l = { (s.link l).touchSilent with heldBy := some 100000000 }) ∧
          (p.body = .resume → t.link l = { (s.link l).touchSilent with heldBy := none }) ∧
          (∀ n, p.body = .echoReq n → t.link l = { (s.link l).touchSilent with owedEcho := some ⟨n, a.last⟩ }) ∧
          (∀ n h, p.body = .echoReply n h → t.link l = { (s.link l).touchSilent with
            echo := { (s.link l).echo with replies := (s.link l).echo.replies ++ [⟨n, h, a.first⟩] } }))) ∧
      (s.link l).touchSilent = { s.link l with timers := { (s.link l).timers with
        peerSilent := if (s.link l).timers.peerSilent = none then none
          else if (s.link l).record.state = .up then some 50000000 else some 8000000 } }

/-- What a received page is (R38, R40, R197): FRAME where its framing or its 16 bytes fail, CHECK where its check fails,
FRAME where its content fails, else the page with the sender tag, kind and fields that its bytes hold, each in its
range. A page built from a tag that names an end and from fields in their ranges is 16 bytes, and is received as it
was sent. -/
def Obligations.PagesAreJudged : Prop :=
  (∀ (framed : Bool) (bs : List Byte),
    (framed = false ∨ bs.length ≠ 16 → judgePage framed bs = .error .frame) ∧
    (framed = true → bs.length = 16 →
      (field bs 14 2 ≠ (crc (bs.take 14)).toNat → judgePage framed bs = .error .check) ∧
      (field bs 14 2 = (crc (bs.take 14)).toNat →
        (∀ p, judgePage framed bs = .ok p ↔ p.sender = Tag.unpack (BitVec.ofNat 32 (field bs 2 4)) ∧
          p.sender.chassis ≠ 0 ∧ p.body.fits bs) ∧
        ((∀ p, judgePage framed bs ≠ .ok p) → judgePage framed bs = .error .frame)))) ∧
  (∀ (t : Tag) (body : PageBody), t.chassis ≠ 0 → body.inRange →
    (pageBytes t body).length = 16 ∧ judgePage true (pageBytes t body) = .ok ⟨t, body⟩)

/-- Beacons go to the Lane Discovery Unit (R91 to R95): in LISTEN a leg that expects a cable keeps the observation and
reports the first, a leg that expects none reports it and keeps none; in PAIRING a beacon replaces its lane's
observation, and where the lane had none or a different one the lane map and the pilot lane follow and the map is
evaluated once. Until ROW_CHANGE follows a change of split, the lane map and the pilot lane follow over the length that
the record's list has, and the map checks use the new width, the lane heard being that of the new split, which is the
model's choice (assumption log 53 and 67). In every
other state a beacon changes nothing. The map checks in their order, by their first failure
(R96): a tag that is the own one; a split that is not the own, or tags that differ in leg alone; tags that differ in
more; two lanes that hear one far lane, or a far lane outside the leg. An evaluation with a failure is a finding on
the lane that changed (R97); one with none is COMPLETE exactly when every near lane of the leg is observed (R98). -/
def Obligations.BeaconsAreObserved : Prop :=
  (∀ (port : PortId) (lane : Lane) (a : Arrival) (s : State) (l : LinkId) (near : Lane) (tag : Tag) (sp : Split)
    (far : Lane), nearLane (s.splitOf port) lane = (legOf l, near) → portOf l = port →
    judgePage a.framed a.bytes = .ok ⟨tag, .beacon sp far⟩ →
    ∃ t, exec (.pageArrival port lane a) s = .next t ∧ OnlyLink l s t ∧
      ((s.link l).record.state ≠ .listen → (s.link l).record.state ≠ .pairing → t.link l = s.link l) ∧
      ((s.link l).record.state = .listen → (s.legPlan l).kind = .none → t.link l = { s.link l with
        inbox := (s.link l).inbox ++ [.quietBeacon near tag s.uptime] }) ∧
      ((s.link l).record.state = .listen → (s.legPlan l).kind ≠ .none →
        (t.link l).obs[near] = some ⟨tag, sp, far, a.inverted, s.uptime⟩ ∧
        (t.link l).record = (s.link l).record ∧
        (t.link l).inbox = (if presentObs (s.link l).obs (s.env l).width = [] then
          (s.link l).inbox ++ [.firstBeacon near] else (s.link l).inbox)) ∧
      ((s.link l).record.state = .pairing →
        (t.link l).obs[near] = some ⟨tag, sp, far, a.inverted, s.uptime⟩ ∧
        (∀ k : Lane, k ≠ near → (t.link l).obs[k] = (s.link l).obs[k]) ∧
        (∀ o, (s.link l).obs[near] = some o → o.tag = tag → o.split = sp → o.far = far → o.inverted = a.inverted →
          (t.link l).record = (s.link l).record ∧ (t.link l).inbox = (s.link l).inbox) ∧
        ((∀ o, (s.link l).obs[near] = some o →
            ¬(o.tag = tag ∧ o.split = sp ∧ o.far = far ∧ o.inverted = a.inverted)) →
          (t.link l).inbox = (s.link l).inbox ++ [evaluateMap (s.env l) (t.link l).obs near] ∧
          ((s.link l).record.laneMap.length ≤ 8 →
            (t.link l).record.laneMap.length = (s.link l).record.laneMap.length ∧
            ∀ k : Lane, k.val < (s.link l).record.laneMap.length →
              (t.link l).record.laneMap[k.val]? =
                  some (((t.link l).obs[k]).map fun o => (⟨o.far, o.inverted⟩ : LaneEntry)) ∧
              ((t.link l).record.pilot = some k ↔ (∃ o, (t.link l).obs[k] = some o ∧ o.far = 0) ∧
                ∀ j : Lane, j < k → ∀ o, (t.link l).obs[j] = some o → o.far ≠ 0))))) ∧
  (∀ (obs : Vector (Option Obs) 8) (width : Nat) (k : Lane) (o : Obs),
    (k, o) ∈ presentObs obs width ↔ k.val < width ∧ obs[k] = some o) ∧
  (∀ (own : Tag) (sp : Split) (width : Nat) (xs : List (Lane × Obs)),
    (mapFault own sp width xs = some .loopedToSelf ↔ LoopedToSelf own xs) ∧
    (mapFault own sp width xs = some .splitMismatch ↔ ¬LoopedToSelf own xs ∧ SplitMismatch sp xs) ∧
    (mapFault own sp width xs = some .mixedCable ↔
      ¬LoopedToSelf own xs ∧ ¬SplitMismatch sp xs ∧ MixedCable xs) ∧
    (mapFault own sp width xs = some .laneConflict ↔
      ¬LoopedToSelf own xs ∧ ¬SplitMismatch sp xs ∧ ¬MixedCable xs ∧ LaneConflict width xs) ∧
    (mapFault own sp width xs = none ↔
      ¬LoopedToSelf own xs ∧ ¬SplitMismatch sp xs ∧ ¬MixedCable xs ∧ ¬LaneConflict width xs)) ∧
  (∀ (e : Env) (obs : Vector (Option Obs) 8) (lane : Lane), e.width ≤ 8 →
    (∀ k o, mapFault e.ownTag e.split e.width (presentObs obs e.width) = some k → obs[lane] = some o →
      evaluateMap e obs lane = .mapFinding ⟨k, lane, o.tag, o.seen⟩) ∧
    (mapFault e.ownTag e.split e.width (presentObs obs e.width) = none →
      ((∀ k : Lane, k.val < e.width → obs[k] ≠ none) → evaluateMap e obs lane = .mapOutcome true) ∧
      ((∃ k : Lane, k.val < e.width ∧ obs[k] = none) → evaluateMap e obs lane = .mapOutcome false)))

/-- PAGE_PROCESSOR_TURN (R54): the first link after the last served whose FIFO holds a page, wrapping from 63 to 0;
the head entry is taken, a tagged one counted as a page error and reported, an untagged one handed to its sequencer.
The take that leaves 2 makes RESUME owed where HOLD is in force, in the model also where a second HOLD is owed (assumption
log 60), and one that leaves 2 or fewer else cancels an owed HOLD (R55). With every FIFO empty nothing changes. -/
def Obligations.PageProcessorTakesTurns : Prop :=
  ∀ s : State,
    ((∀ l, (s.link l).rx = []) → exec .pageProcessorTurn s = .next s) ∧
    ∀ (l : LinkId) (entry : RxEntry) (rest : List RxEntry), (s.link l).rx = entry :: rest →
      (∀ k, (s.link k).rx ≠ [] → (l - (s.lastServed + 1)).val ≤ (k - (s.lastServed + 1)).val) →
      ∃ t, exec .pageProcessorTurn s = .next t ∧ t.lastServed = l ∧
        OnlyLink l s { t with lastServed := s.lastServed } ∧ (t.link l).rx = rest ∧
        (t.link l).owedFlow = (if rest.length = 2 ∧ (s.link l).holdForce ≠ none then some .resume
          else if rest.length ≤ 2 ∧ (s.link l).owedFlow = some .hold then none else (s.link l).owedFlow) ∧
        match entry with
        | .tagged .. => (t.link l).inbox = (s.link l).inbox ++ [.pageError] ∧ (t.link l).record =
            { (s.link l).record with pageErrors := min 65535 ((s.link l).record.pageErrors + 1) }
        | .untagged p => (t.link l).inbox = (s.link l).inbox ++ [.page p] ∧ (t.link l).record = (s.link l).record

/-- PAGE_TX_START: while a page is in progress, and for a link with no own tag, nothing begins (R38, R52). Else an
owed HOLD or RESUME begins, else an owed ECHO_REPLY (H holds a free value, assumption log 8), else, unless the peer holds the transmitter, the head of the
queue (R50, R52, R57). A QUAL_READY or QUAL_RESULT carries the seed or the verdict it was queued with, every other page is
built as it begins (assumption log 13). A leg-1 link that a change of split has left without lanes sends on until its
ROW_CHANGE, which is the model's choice (assumption log 58). PAGE_TX_END of a HOLD starts its limit, in the model in every state (assumption log 32), of a RESUME
ends it (R56); of an ECHO_REQ it makes the sample OUTSTANDING (R105). Of TRAIN_READY and of TRAINED it is their being
sent, which takes a link that has received the peer's to TRAIN and to QUALIFY (R69, R70, R113). The end of a page that
nothing waits for changes nothing else. -/
def Obligations.TransmitterChoosesAndEnds : Prop :=
  ∀ (l : LinkId) (now : Nat) (s : State),
    (∃ t, exec (.pageTxStart l now) s = .next t ∧ OnlyLink l s t ∧
      ((s.link l).sending ≠ none ∨ (s.ownTag l).chassis = 0 → t.link l = s.link l) ∧
      ((s.link l).sending = none → (s.ownTag l).chassis ≠ 0 →
        (∀ f, (s.link l).owedFlow = some f → t.link l = { s.link l with
          owedFlow := none,
          sending := some ⟨.flow f, pageBytes (s.ownTag l) f.body, (s.link l).record.state.highRate⟩ }) ∧
        (∀ o, (s.link l).owedFlow = none → (s.link l).owedEcho = some o →
          (now - o.ended + Config.receiveSendPath ≤ 65535 → t.link l = { s.link l with
            owedEcho := none,
            sending := some ⟨.echoReply o.seq,
              pageBytes (s.ownTag l) (.echoReply o.seq (now - o.ended + Config.receiveSendPath)),
              (s.link l).record.state.highRate⟩ }) ∧
          (65535 < now - o.ended + Config.receiveSendPath → (t.link l).owedEcho = none)) ∧
        (∀ it rest, (s.link l).owedFlow = none → (s.link l).owedEcho = none → (s.link l).heldBy = none →
          (s.link l).tx = it :: rest → t.link l = { s.link l with
            tx := rest,
            sending := some ⟨.item it, pageBytes (s.ownTag l) (it.body (s.env l)),
              (s.link l).record.state.highRate⟩ }) ∧
        ((s.link l).owedFlow = none → (s.link l).owedEcho = none → (s.link l).heldBy ≠ none ∨ (s.link l).tx = [] →
          t.link l = s.link l))) ∧
    ((s.link l).sending = none → (s.link l).runDue = false →
      ∃ t, exec (.pageTxEnd l now) s = .next t ∧ OnlyLink l s t ∧ t.link l = s.link l) ∧
    (∀ b h, (s.link l).runDue = false → (s.link l).sending = some ⟨.flow .hold, b, h⟩ →
      ∃ t, exec (.pageTxEnd l now) s = .next t ∧ OnlyLink l s t ∧
        t.link l = { s.link l with sending := none, holdForce := some 100000000 }) ∧
    (∀ b h, (s.link l).runDue = false → (s.link l).sending = some ⟨.flow .resume, b, h⟩ →
      ∃ t, exec (.pageTxEnd l now) s = .next t ∧ OnlyLink l s t ∧
        t.link l = { s.link l with sending := none, holdForce := none }) ∧
    (∀ n b h, (s.link l).runDue = false → (s.link l).sending = some ⟨.item (.echoReq n), b, h⟩ →
      (s.link l).echo.running = true → (s.link l).echo.samples[n] = .waiting →
      ∃ t, exec (.pageTxEnd l now) s = .next t ∧ OnlyLink l s t ∧ t.link l = { s.link l with
        sending := none,
        echo := { (s.link l).echo with
          samples := (s.link l).echo.samples.set n (.outstanding now 1000000) } }) ∧
    (∀ b h, (s.link l).sending = some ⟨.item .trainReady, b, h⟩ → (s.link l).record.state = .verify →
      (s.link l).stage.verifyPassed = true → ∃ t, exec (.pageTxEnd l now) s = .next t ∧ OnlyLink l s t ∧
        ((s.link l).stage.trainReadyRecv = true →
          (t.link l).record = { (s.link l).record with state := .train, prev := .verify } ∧
          (t.link l).sending = none ∧ (t.link l).skew = .gap 0 ∧
          (t.link l).timers = { train := some 100000000, announce := some 1000000 }) ∧
        ((s.link l).stage.trainReadyRecv = false → t.link l = { s.link l with
          sending := none, stage := { (s.link l).stage with trainReadySent := true } })) ∧
    (∀ b h, (s.link l).sending = some ⟨.item .trained, b, h⟩ → (s.link l).record.state = .train →
      (s.link l).record.deskew ≠ [] → (∀ x ∈ (s.link l).record.deskew, x ≠ none) →
      ∃ t, exec (.pageTxEnd l now) s = .next t ∧ OnlyLink l s t ∧
        ((s.link l).stage.trainedRecv = true →
          (t.link l).record.state = .qualify ∧ (t.link l).record.prev = .train ∧ (t.link l).sending = none ∧
          (t.link l).toEngine = (s.link l).toEngine ++ [.request (s.legPlan l).priority] ∧
          (t.link l).timers = { qualifyWait := some 2000000000, announce := some 1000000 }) ∧
        ((s.link l).stage.trainedRecv = false → t.link l = { s.link l with
          sending := none, stage := { (s.link l).stage with trainedSent := true } })) ∧
    (∀ what b h, (s.link l).runDue = false → (s.link l).sending = some ⟨what, b, h⟩ →
      (what ∈ [Sent.item .beacon, .item .ident, .item .requal, .item .keepalive] ∨ (∃ n, what = .echoReply n) ∨
        (∃ r, what = .item (.bye r)) ∨ ∃ v n, what = .item (.qualResult v n)) →
      ∃ t, exec (.pageTxEnd l now) s = .next t ∧ OnlyLink l s t ∧ t.link l = { s.link l with sending := none })

/-- The Page Link's timers: KEEPALIVE every 10 ms (R48), the further copies of a BYE 1 ms apart (R49), the limits of a
hold (R56, R57), the interval of the error monitor (R84), the announcements of the state (R47). At the limit of a HOLD
with 6 pages or more a new one is owed, and with fewer nothing is. A timer that does not run changes nothing. What each
state announces is the table of R47; the order of the two pages that PAIRING, VERIFY and QUALIFY queue in one step is the
model's choice (assumption log 14); that the timers of a leg-1 link that a change of split has left without lanes run on
until its ROW_CHANGE is the model's choice too (assumption log 58). -/
def Obligations.PageTimersPaceTheLink : Prop :=
  ∀ (l : LinkId) (s : State),
    (∃ t, exec (.announceExpiry l) s = .next t ∧ OnlyLink l s t ∧
      (t.link l).record = (s.link l).record ∧
      ((s.link l).timers.announce = none → t.link l = s.link l) ∧
      ((s.link l).timers.announce ≠ none →
        (t.link l).timers = { (s.link l).timers with announce := some 1000000 } ∧
        ((s.link l).tx = [] → (s.link l).heldBy = none →
          (t.link l).tx = (s.link l).announcePages (s.env l)))) ∧
    (∃ t, exec (.keepaliveTimerExpiry l) s = .next t ∧ OnlyLink l s t ∧
      ((s.link l).timers.keepalive = none → t.link l = s.link l) ∧
      ((s.link l).timers.keepalive ≠ none →
        (t.link l).timers = { (s.link l).timers with keepalive := some 10000000 } ∧
        ((s.link l).heldBy = none → (s.link l).tx.length < 4 → (t.link l).tx = (s.link l).tx ++ [.keepalive]) ∧
        ((s.link l).heldBy ≠ none → (t.link l).tx = (s.link l).tx))) ∧
    (∃ t, exec (.byeCopyDue l) s = .next t ∧ OnlyLink l s t ∧
      ((s.link l).byeTimer = none → t.link l = s.link l) ∧
      (∀ r, (s.link l).byeTimer ≠ none → (s.link l).tx.length < 4 →
        ((s.link l).bye = some ⟨r, 2⟩ → t.link l = { s.link l with
          bye := some ⟨r, 1⟩, byeTimer := some 1000000, tx := (s.link l).tx ++ [.bye r] }) ∧
        ((s.link l).bye = some ⟨r, 1⟩ → t.link l = { s.link l with
          bye := none, byeTimer := none, tx := (s.link l).tx ++ [.bye r] }))) ∧
    (∃ t, exec (.holdLimitExpiry l) s = .next t ∧ OnlyLink l s t ∧ t.link l = { s.link l with heldBy := none }) ∧
    (∃ t, exec (.holdForceLimitExpiry l) s = .next t ∧ OnlyLink l s t ∧
      t.link l = if (s.link l).holdForce = none then s.link l else { s.link l with
        holdForce := none,
        owedFlow := if 6 ≤ (s.link l).rx.length then some .hold else none }) ∧
    (∃ t, exec (.burstIntervalEnd l) s = .next t ∧ OnlyLink l s t ∧
      t.link l = if (s.link l).timers.burst = none then s.link l else { s.link l with
        burstCount := 0,
        burstLimit := min (s.classOf l).burst ((s.link l).peerBurst.getD (s.classOf l).burst),
        timers := { (s.link l).timers with burst := some 1000000 } }) ∧
    (∀ e : Env,
      ((s.link l).record.state = .listen →
        (s.link l).announcePages e = if e.leg.kind = .none then [] else [.beacon]) ∧
      ((s.link l).record.state = .pairing → (s.link l).announcePages e = [.beacon, .ident]) ∧
      ((s.link l).record.state = .verify →
        (s.link l).announcePages e = if (s.link l).stage.verifyPassed then [.ident, .trainReady] else [.ident]) ∧
      ((s.link l).record.state = .train →
        ((s.link l).record.deskew ≠ [] ∧ (∀ x ∈ (s.link l).record.deskew, x ≠ none) →
          (s.link l).announcePages e = [.trained]) ∧
        ((s.link l).record.deskew = [] ∨ none ∈ (s.link l).record.deskew → (s.link l).announcePages e = [])) ∧
      ((s.link l).record.state = .qualify → ∀ it, it ∈ (s.link l).announcePages e ↔
        (it = .requal ∧ (s.link l).stage.byRequalify = true ∧ (s.link l).stage.requalAnswered = false) ∨
        (∃ seed, it = .qualReady seed ∧ (s.link l).ownSeed = some seed ∧ (s.link l).stage.granted = true ∧
          (s.link l).stage.run ≠ .ended) ∨
        (∃ v, it = .qualResult v ((s.link l).record.legLmi.getD 0) ∧ (s.link l).record.localV = some v ∧
          (s.link l).stage.run = .ended ∧ (s.link l).record.peerV = none)) ∧
      ((s.link l).record.state ∈ [LinkState.up, .off, .backoff, .held] → (s.link l).announcePages e = []))

/-! ## The Link Sequencer -/

/-- A transition (R61): the state and the state left, the private flags, every timer but those of the new state, the
gate, one state event; R10's fields on entry to LISTEN and QUALIFY, R72 at UP, the flap count on exit from UP. What
the Page Link holds is cleared on entry to a quiet state and LISTEN (R58), and BYE copies are left to run but at
PAIRING (R49). -/
def Obligations.TransitionsDoAllOfTheirList : Prop :=
  ∀ (e : Env) (lk : Link) (st : LinkState) (en : Entry),
    let n := lk.move e st en
    n.record.state = st ∧ n.record.prev = lk.record.state ∧ n.gate = decide (st = .up) ∧ n.stage = en.stage ∧
    n.timers = { entryTimers e st en.backoff with announce := some 1000000 } ∧
    n.record.lastReason = lk.record.lastReason ∧ n.record.adminDown = lk.record.adminDown ∧
    n.record.generation = lk.record.generation ∧ n.record.pageErrors = lk.record.pageErrors ∧
    n.record.overruns = lk.record.overruns ∧
    n.record.retries = (if st = .up then 0 else lk.record.retries) ∧
    n.record.flap = (if lk.record.state = .up then min 255 (lk.record.flap + 1) else lk.record.flap) ∧
    n.record.upSince = (if st = .up then some e.uptime else if lk.record.state = .up then none else lk.record.upSince) ∧
    n.record.exhausted = (if lk.record.state = .held then false else lk.record.exhausted) ∧
    (st = .listen → n.record.neighbour = none ∧ n.record.farExpect = none ∧ n.record.pilot = none ∧
      n.record.length = none ∧ n.record.skewSpan = none ∧ (∀ x ∈ n.record.laneMap, x = none) ∧
      (∀ x ∈ n.record.deskew, x = none) ∧ n.record.laneMap.length = lk.record.laneMap.length) ∧
    (st = .listen ∨ st = .qualify → n.record.legLmi = none ∧ n.record.localV = none ∧ n.record.peerV = none ∧
      n.record.finalV = none ∧ ∀ x ∈ n.record.laneLmis, x = none) ∧
    (st ≠ .listen → n.record.neighbour = lk.record.neighbour ∧ n.record.laneMap = lk.record.laneMap ∧
      n.record.length = lk.record.length ∧ n.record.deskew = lk.record.deskew) ∧
    (st.clears = true → n.rx = [] ∧ n.owedFlow = none ∧ n.owedEcho = none ∧ n.heldBy = none ∧ n.holdForce = none ∧
      n.delays = none ∧ n.bye = lk.bye) ∧
    (st = .pairing → n.bye = none) ∧
    (lk.record.state = .qualify → .departure ∈ n.toEngine) ∧
    (st = .qualify → .request en.prio ∈ n.toEngine ∧ n.requalRef = en.requal) ∧
    OrdMsg.event ⟨.state st lk.record.state, e.uptime, e.reading⟩ ∈ n.toOrder ∧ n.toLog = lk.toLog

/-- A retryable failure (R74, R75): below the retry limit one retry more and BACKOFF for 10 ms times 2 to the retries
used before; at the limit HELD, exhausted, with HELD_DOWN, whose detail is the cause, and last reason keeping the
cause. It follows the expiry of the verify, train, qualify-wait and peer-result timers, each with its own reason (R69,
R70, R124), and of the pairing timer where every lane was observed (R67). A timer that does not run does not expire,
and a pairing timer with a lane unobserved is LANE_MISSING with the lowest such lane (R67, R133), of the lanes of the
effective split, also before its ROW_CHANGE (the model's choice, assumption log 67). -/
def Obligations.StageExpiriesAreRetryable : Prop :=
  (∀ (l : LinkId) (s : State) (c : Instr) (why : Reason),
    ((c = .verifyTimerExpiry l ∧ why = .timeoutVerify ∧ (s.link l).timers.verify ≠ none) ∨
     (c = .trainTimerExpiry l ∧ why = .timeoutTrain ∧ (s.link l).timers.train ≠ none) ∨
     (c = .qualifyWaitExpiry l ∧ why = .timeoutQualify ∧ (s.link l).timers.qualifyWait ≠ none) ∨
     (c = .peerResultWaitExpiry l ∧ why = .timeoutQualify ∧ (s.link l).timers.peerResult ≠ none) ∨
     (c = .pairingTimerExpiry l ∧ why = .timeoutPairing ∧ (s.link l).timers.pairing ≠ none ∧
       ∀ i : Lane, i.val < (s.env l).width → (s.link l).obs[i] ≠ none)) →
    (s.link l).record.state ∈ [LinkState.pairing, .verify, .train, .qualify] →
    ∃ t, exec c s = .next t ∧ OnlyLink l s t ∧
      ((s.link l).record.retries < (s.legPlan l).retryLimit →
        (t.link l).record = { (s.link l).record with
          state := .backoff, prev := (s.link l).record.state, lastReason := why,
          retries := (s.link l).record.retries + 1 } ∧
        (t.link l).timers =
          { backoff := some (10000000 * 2 ^ (s.link l).record.retries), announce := some 1000000 } ∧
        (t.link l).toLog = (s.link l).toLog) ∧
      ((s.legPlan l).retryLimit ≤ (s.link l).record.retries →
        (t.link l).record = { (s.link l).record with
          state := .held, prev := (s.link l).record.state, lastReason := why, exhausted := true } ∧
        (t.link l).toLog = (s.link l).toLog ++ [⟨.heldDown, BitVec.ofNat 32 why.code, (s.env l).expected,
          (s.link l).neighbourTag, (s.link l).record.farExpect, s.uptime⟩])) ∧
  (∀ (l : LinkId) (s : State),
    (∀ c ∈ [Instr.verifyTimerExpiry l, .trainTimerExpiry l, .qualifyWaitExpiry l, .peerResultWaitExpiry l,
      .pairingTimerExpiry l, .backoffExpiry l, .peerSilentExpiry l],
      (s.link l).timers.verify = none → (s.link l).timers.train = none → (s.link l).timers.qualifyWait = none →
      (s.link l).timers.peerResult = none → (s.link l).timers.pairing = none → (s.link l).timers.backoff = none →
      (s.link l).timers.peerSilent = none → ∃ t, exec c s = .next t ∧ OnlyLink l s t ∧ t.link l = s.link l) ∧
    ∀ i : Lane, (s.link l).timers.pairing ≠ none → (s.link l).record.state = .pairing → i.val < (s.env l).width →
      (s.link l).obs[i] = none → (∀ k : Lane, k < i → (s.link l).obs[k] ≠ none) →
      ∃ t, exec (.pairingTimerExpiry l) s = .next t ∧ OnlyLink l s t ∧
        (t.link l).record.lastReason = .disc .laneMissing ∧
        (t.link l).record.state = (if (s.link l).record.retries < (s.legPlan l).retryLimit then .backoff else .held) ∧
        ∃ d ∈ (t.link l).toLog, d.kind = .laneMissing ∧ d.detail = BitVec.ofNat 32 i.val ∧
          d.expected = (s.env l).expected ∧ d.time = s.uptime)

/-- A link in LISTEN or BACKOFF. The presence deadline raises MISSING_CABLE once (R82); the absence timer ends what the
quiet listener heard, and a first beacon after it is UNEXPECTED_CABLE (R83, R133). BACKOFF ends in LISTEN with a fresh
record of the attempt (R10, R76). The first valid beacon takes a link in LISTEN to PAIRING with one evaluation of the
map for each observation held, up to the first finding (R66, R94); a report that is taken when the leg has come to
expect none, or out of LISTEN, is dropped, in LISTEN with the observations, so that the next beacon kept is a first one
again (the model's choice, assumption log 39). A report that is taken in the state and under the kind it asks for is
acted on, also where the observation has been cleared meanwhile, or where the report is of an earlier stay in LISTEN,
which is the model's choice (assumption log 52). -/
def Obligations.QuietLinksGoOn : Prop :=
  (∀ (l : LinkId) (s : State),
    (∃ t, exec (.presenceDeadlineExpiry l) s = .next t ∧ OnlyLink l s t ∧
      t.link l = if (s.link l).timers.presence = none then s.link l else { s.link l with
        timers := { (s.link l).timers with presence := none },
        record := { (s.link l).record with lastReason := .disc .missingCable },
        toLog := (s.link l).toLog ++
          [⟨.missingCable, 0, (s.env l).expected, none, (s.link l).record.farExpect, s.uptime⟩],
        toOrder := (s.link l).toOrder ++ [.event ⟨.discrepancy .missingCable 0, s.uptime, s.readingTakes⟩] }) ∧
    (∃ t, exec (.absenceTimerExpiry l) s = .next t ∧ OnlyLink l s t ∧
      t.link l = if (s.link l).timers.absence = none then s.link l else { s.link l with
        timers := { (s.link l).timers with absence := none }, stage := { (s.link l).stage with heard := false } }) ∧
    ∀ lane tag seen rest, (s.link l).inbox = .quietBeacon lane tag seen :: rest →
      (s.link l).record.state = .listen → (s.legPlan l).kind = .none →
      ∃ t, exec (.quietBeacon l) s = .next t ∧ OnlyLink l s t ∧ (t.link l).inbox = rest ∧
        (t.link l).stage = { (s.link l).stage with heard := true } ∧
        (t.link l).timers = { (s.link l).timers with absence := some 2000000000 } ∧
        ((s.link l).stage.heard = true → (t.link l).record = (s.link l).record ∧ (t.link l).toLog = (s.link l).toLog) ∧
        ((s.link l).stage.heard = false →
          (t.link l).record = { (s.link l).record with lastReason := .disc .unexpectedCable } ∧
          (t.link l).toLog = (s.link l).toLog ++ [⟨.unexpectedCable, BitVec.ofNat 32 lane.val, none, some tag,
            (s.link l).record.farExpect, seen⟩])) ∧
  ∀ (l : LinkId) (s : State),
    ((s.link l).timers.backoff ≠ none → (s.link l).record.state = .backoff →
      ∃ t, exec (.backoffExpiry l) s = .next t ∧ OnlyLink l s t ∧ (t.link l).record.state = .listen ∧
        (t.link l).record.prev = .backoff ∧ (t.link l).record.neighbour = none ∧
        (t.link l).record.retries = (s.link l).record.retries ∧
        (t.link l).record.lastReason = (s.link l).record.lastReason ∧ (t.link l).obs = Bank.fill 8 none ∧
        (t.link l).timers.presence = (if (s.legPlan l).kind = .none then none else some 2000000000)) ∧
    (∀ lane rest, (s.link l).inbox = .firstBeacon lane :: rest →
      ∃ t, exec (.firstValidBeacon l) s = .next t ∧ OnlyLink l s t ∧
        ((s.link l).record.state ≠ .listen → t.link l = { s.link l with inbox := rest }) ∧
        ((s.link l).record.state = .listen → (s.legPlan l).kind = .none →
          t.link l = { s.link l with inbox := rest, obs := Bank.fill 8 none })) ∧
    ∀ lane rest, (s.link l).inbox = .firstBeacon lane :: rest → (s.link l).record.state = .listen →
      (s.legPlan l).kind ≠ .none →
      ∃ t, exec (.firstValidBeacon l) s = .next t ∧ OnlyLink l s t ∧ (t.link l).record.state = .pairing ∧
        (t.link l).record.prev = .listen ∧ (t.link l).obs = (s.link l).obs ∧
        (t.link l).timers = { pairing := some 200000000, peerSilent := some 8000000, announce := some 1000000 } ∧
        (t.link l).bye = none ∧ ∃ reports, (t.link l).inbox = rest ++ reports ∧
          reports = evaluateEntry (s.env l) (s.link l).obs
            (lane :: ((presentObs (s.link l).obs (s.env l).width).map (·.1)).filter fun i => !decide (i = lane))
            (Bank.fill 8 none)

/-- A link in UP is lost to BACKOFF for 10 ms, with no retry counted (R85): a silent peer (R64), more errors in an
interval than the limit (R84), a loss of signal on a lane of the leg (R80). In bring-up a silent peer and a loss of
signal are retryable failures (R64, R74, R80). While HOLD is in force no peer is silent (R56). The lane's link is that
of the effective split, also before its ROW_CHANGE (the model's choice, assumption log 67). -/
def Obligations.UpLinksAreLost : Prop :=
  ∀ (l : LinkId) (s : State) (port : PortId) (lane near : Lane), portOf l = port →
    nearLane (s.splitOf port) lane = (legOf l, near) →
    (∀ c why, ((c = .peerSilentExpiry l ∧ why = .peerSilent ∧ (s.link l).timers.peerSilent ≠ none ∧
        (s.link l).holdForce = none) ∨
       (c = .laneStreamError l ∧ why = .errorBurst ∧ (s.link l).burstLimit < min 65536 ((s.link l).burstCount + 1)) ∨
       (c = .lossOfSignal port lane ∧ why = .linkLost)) → (s.link l).record.state = .up →
      ∃ t, exec c s = .next t ∧ OnlyLink l s t ∧ (t.link l).gate = false ∧
        (t.link l).record = { (s.link l).record with
          state := .backoff, prev := .up, lastReason := why, upSince := none,
          flap := min 255 ((s.link l).record.flap + 1) } ∧
        (t.link l).timers = { backoff := some 10000000, announce := some 1000000 }) ∧
    (∀ c why, ((c = .peerSilentExpiry l ∧ why = .peerSilent ∧ (s.link l).timers.peerSilent ≠ none ∧
        (s.link l).holdForce = none ∧ (s.link l).record.state ∈ [LinkState.pairing, .verify, .train, .qualify]) ∨
       (c = .lossOfSignal port lane ∧ why = .linkLost ∧
        ((s.link l).record.state ∈ [LinkState.verify, .train, .qualify] ∨
          ((s.link l).record.state = .pairing ∧ (s.link l).obs[near] ≠ none)))) →
      ∃ t, exec c s = .next t ∧ OnlyLink l s t ∧ (t.link l).record.lastReason = why ∧
        (t.link l).record.state = (if (s.link l).record.retries < (s.legPlan l).retryLimit then .backoff else .held)) ∧
    ((s.link l).holdForce ≠ none → ∃ t, exec (.peerSilentExpiry l) s = .next t ∧ OnlyLink l s t ∧
      t.link l = s.link l) ∧
    ((s.link l).record.state = .up → min 65536 ((s.link l).burstCount + 1) ≤ (s.link l).burstLimit →
      ∃ t, exec (.laneStreamError l) s = .next t ∧ OnlyLink l s t ∧
        t.link l = { s.link l with burstCount := min 65536 ((s.link l).burstCount + 1) }) ∧
    ((s.link l).record.state.conversing = false ∨ ((s.link l).record.state = .pairing ∧ (s.link l).obs[near] = none) →
      ∃ t, exec (.lossOfSignal port lane) s = .next t ∧ OnlyLink l s t ∧ t.link l = s.link l)

/-- MAP_FINDING in PAIRING refuses the cable: the discrepancy, BYE(REFUSED), HELD (R77, R97, R133). MAP_OUTCOME in
PAIRING sets what the link knows of its map, and with a neighbour and a COMPLETE map the link enters VERIFY; there a
wrong identity, and with remap FORBID a lane map that is not the identity, refuses the cable under ENFORCE and is only
reported under REPORT (R67, R69, R78, R98, R100). The order of the two pages queued at the entry is the model's choice
(assumption log 14). IDENT in
PAIRING from the tag that the pilot lane observes (R67): the own tag and another split refuse the cable (R77); else
the neighbour is present, the far expectation is the page's, and a SPECIFIC tag that is not the own one is
PEER_MISMATCH where it is new. From any other tag it changes nothing (R73). In VERIFY from the
neighbour the split is checked, in the model first (assumption log 45), and the far expectation taken (R73). -/
def Obligations.MapReportsAndIdentAreActedOn : Prop :=
  (∀ (l : LinkId) (s : State) (rest : List SeqEvent), (s.link l).record.state = .pairing →
    (∀ f, (s.link l).inbox = .mapFinding f :: rest → f.kind ≠ .heldDown →
      ∃ t, exec (.mapFinding l) s = .next t ∧ OnlyLink l s t ∧
        (t.link l).record = { (s.link l).record with state := .held, prev := .pairing, lastReason := .disc f.kind } ∧
        (t.link l).bye = some ⟨.refused, 2⟩ ∧
        (t.link l).toLog = (s.link l).toLog ++ [⟨f.kind, BitVec.ofNat 32 f.lane.val, (s.env l).expected,
          some f.observed, (s.link l).record.farExpect, f.seen⟩]) ∧
    (∀ b, (s.link l).inbox = .mapOutcome b :: rest → ∃ t, exec (.mapOutcome l) s = .next t ∧ OnlyLink l s t ∧
      (b = false ∨ (s.link l).record.neighbour = none → t.link l = { s.link l with
        inbox := rest, stage := { (s.link l).stage with mapComplete := b } }) ∧
      (∀ n, b = true → (s.link l).record.neighbour = some n →
        (∀ x, (s.env l).expected = some x → x ≠ n.tag →
          (∃ d ∈ (t.link l).toLog, d.kind = .unexpectedNeighbour ∧ d.detail = n.tag.pack ∧ d.expected = some x ∧
            d.observed = some n.tag) ∧
          ((s.legPlan l).strict = .enforce → (t.link l).record.state = .held ∧
            (t.link l).record.lastReason = .disc .unexpectedNeighbour ∧ (t.link l).bye = some ⟨.refused, 2⟩)) ∧
        ((∀ x, (s.env l).expected = some x → x = n.tag) ∨ (s.legPlan l).strict = .report →
          (s.legPlan l).remap = .allow →
          (t.link l).record.state = .verify ∧ (t.link l).record.prev = .pairing ∧
            (t.link l).timers = { verify := some 50000000, peerSilent := some 8000000, announce := some 1000000 } ∧
            ((s.link l).tx = [] → (t.link l).tx = [.ident, .echoReq 0] ∧ (t.link l).echo.running = true)) ∧
        ((∀ x, (s.env l).expected = some x → x = n.tag) ∨ (s.legPlan l).strict = .report →
          (s.legPlan l).remap = .forbid →
          ((∀ (i : Lane) en, (s.link l).record.laneMap[i.val]? = some (some en) → en.far = i ∧ en.inverted = false) →
            (t.link l).record.state = .verify) ∧
          (∀ (i : Lane) en, (s.link l).record.laneMap[i.val]? = some (some en) → en.far ≠ i ∨ en.inverted = true →
            (∀ (k : Lane) en', k < i → (s.link l).record.laneMap[k.val]? = some (some en') →
              en'.far = k ∧ en'.inverted = false) →
            (∃ d ∈ (t.link l).toLog, d.kind = .laneOrder ∧ d.detail = BitVec.ofNat 32 i.val) ∧
            ((s.legPlan l).strict = .enforce → (t.link l).record.state = .held ∧
              (t.link l).record.lastReason = .disc .laneOrder ∧ (t.link l).bye = some ⟨.refused, 2⟩) ∧
            ((s.legPlan l).strict = .report → (t.link l).record.state = .verify)))))) ∧
  (∀ (l : LinkId) (s : State) (rest : List SeqEvent) (sender tag : Tag) (sp : Split) (k : ExpectKind) (st : Strictness)
    (u b : Nat), (s.link l).inbox = .page ⟨sender, .ident sp k st tag u b⟩ :: rest →
    ((s.link l).record.state = .verify → ∃ t, exec (.identReceived l) s = .next t ∧ OnlyLink l s t ∧
      ((s.link l).neighbourTag ≠ some sender → t.link l = { s.link l with inbox := rest }) ∧
      ((s.link l).neighbourTag = some sender → sp ≠ s.splitOf (portOf l) →
        (t.link l).record = { (s.link l).record with
          state := .held, prev := .verify, lastReason := .disc .splitMismatch } ∧
        (t.link l).bye = some ⟨.refused, 2⟩) ∧
      ((s.link l).neighbourTag = some sender → sp = s.splitOf (portOf l) →
        (t.link l).peerUnits = some u ∧ (t.link l).peerBurst = some b ∧ (t.link l).inbox = rest ∧
        ∀ far, far = (⟨k, if k = .specific then some tag else none⟩ : FarExpect) →
          ((s.link l).record.farExpect = some far ∨ k ≠ .specific ∨ tag = s.ownTag l →
            (t.link l).record = { (s.link l).record with farExpect := some far } ∧
            (t.link l).toLog = (s.link l).toLog) ∧
          ((s.link l).record.farExpect ≠ some far → k = .specific → tag ≠ s.ownTag l →
            (t.link l).record = { (s.link l).record with
              farExpect := some far, lastReason := .disc .peerMismatch } ∧
            (t.link l).toLog = (s.link l).toLog ++ [⟨.peerMismatch, BitVec.ofNat 32 st.code, some tag,
              some (s.ownTag l), some far, s.uptime⟩]))) ∧
    ((s.link l).record.state = .pairing → ∃ t, exec (.identReceived l) s = .next t ∧ OnlyLink l s t ∧
      ((s.link l).pilotTag ≠ some sender → t.link l = { s.link l with inbox := rest }) ∧
      ((s.link l).pilotTag = some sender → sender = s.ownTag l ∨ sp ≠ s.splitOf (portOf l) →
        (t.link l).record = { (s.link l).record with
          state := .held, prev := .pairing,
          lastReason := .disc (if sender = s.ownTag l then .loopedToSelf else .splitMismatch) } ∧
        (t.link l).bye = some ⟨.refused, 2⟩) ∧
      ((s.link l).pilotTag = some sender → sender ≠ s.ownTag l → sp = s.splitOf (portOf l) →
        (s.link l).stage.mapComplete = false →
        (t.link l).record.state = .pairing ∧ (t.link l).peerUnits = some u ∧ (t.link l).peerBurst = some b ∧
        (t.link l).record.neighbour = some ((s.link l).record.neighbour.getD ⟨sender, sp⟩) ∧
        (t.link l).record.farExpect = some ⟨k, if k = .specific then some tag else none⟩ ∧
        ((s.link l).record.farExpect ≠ some ⟨k, if k = .specific then some tag else none⟩ → k = .specific →
          tag ≠ s.ownTag l → (t.link l).record.lastReason = .disc .peerMismatch ∧
          (t.link l).toLog = (s.link l).toLog ++ [⟨.peerMismatch, BitVec.ofNat 32 st.code, some tag,
            some (s.ownTag l), some ⟨k, some tag⟩, s.uptime⟩]) ∧
        (k ≠ .specific ∨ tag = s.ownTag l ∨
            (s.link l).record.farExpect = some ⟨k, if k = .specific then some tag else none⟩ →
          (t.link l).toLog = (s.link l).toLog ∧
          (t.link l).record.lastReason = (s.link l).record.lastReason)) ∧
      ((s.link l).pilotTag = some sender → sender ≠ s.ownTag l → sp = s.splitOf (portOf l) →
        (s.link l).stage.mapComplete = true → (s.env l).expected = none → (s.legPlan l).remap = .allow →
        (t.link l).record.state = .verify)))

/-- TRAIN_READY and TRAINED count only from the neighbour (R73). In VERIFY, TRAIN_READY takes a link that has passed
its checks and sent its own to TRAIN (R69); in TRAIN it is answered (R70). In TRAIN, TRAINED takes a link that has
sent its own to QUALIFY, where it asks its engine with its row's priority (R70, R113); in QUALIFY it is answered. -/
def Obligations.TrainingPagesAdvanceTheLink : Prop :=
  ∀ (l : LinkId) (s : State) (sender : Tag) (rest : List SeqEvent),
    ((s.link l).inbox = .page ⟨sender, .trainReady⟩ :: rest →
      ∃ t, exec (.trainReadyReceived l) s = .next t ∧ OnlyLink l s t ∧
        ((s.link l).neighbourTag ≠ some sender → t.link l = { s.link l with inbox := rest }) ∧
        ((s.link l).neighbourTag = some sender →
          ((s.link l).record.state = .verify → (s.link l).stage.verifyPassed = true →
            (s.link l).stage.trainReadySent = true →
            (t.link l).record = { (s.link l).record with state := .train, prev := .verify } ∧
            (t.link l).skew = .gap 0 ∧
            (t.link l).timers = { train := some 100000000, announce := some 1000000 }) ∧
          ((s.link l).record.state = .verify →
            (s.link l).stage.verifyPassed = false ∨ (s.link l).stage.trainReadySent = false →
            t.link l = { s.link l with inbox := rest, stage := { (s.link l).stage with trainReadyRecv := true } }) ∧
          ((s.link l).record.state = .train → (s.link l).tx.length < 4 →
            t.link l = { s.link l with inbox := rest, tx := (s.link l).tx ++ [.trainReady] }))) ∧
    ((s.link l).inbox = .page ⟨sender, .trained⟩ :: rest →
      ∃ t, exec (.trainedReceived l) s = .next t ∧ OnlyLink l s t ∧
        ((s.link l).neighbourTag ≠ some sender → t.link l = { s.link l with inbox := rest }) ∧
        ((s.link l).neighbourTag = some sender →
          ((s.link l).record.state = .train → (s.link l).stage.trainedSent = true →
            (t.link l).record.state = .qualify ∧ (t.link l).record.prev = .train ∧
            (t.link l).toEngine = (s.link l).toEngine ++ [.request (s.legPlan l).priority] ∧
            (t.link l).timers = { qualifyWait := some 2000000000, announce := some 1000000 }) ∧
          ((s.link l).record.state = .train → (s.link l).stage.trainedSent = false →
            t.link l = { s.link l with inbox := rest, stage := { (s.link l).stage with trainedRecv := true } }) ∧
          ((s.link l).record.state = .qualify → (s.link l).tx.length < 4 →
            t.link l = { s.link l with inbox := rest, tx := (s.link l).tx ++ [.trained] })))

/-- The final verdict is the worse of the two (R71, R123, R129): PASS and MARGINAL take the link to UP, MARGINAL with
QUALITY_MARGINAL and FAIL with QUALITY_FAIL, a retryable failure. It is reached by QUAL_RESULT after the local run and
by the run's end after QUAL_RESULT; whichever comes first is kept (R122, R123). The run's end after QUAL_RESULT sends
its own QUAL_RESULT too, and on an idle lane that page has begun when the verdict is acted on, whatever the verdict; on a
busy lane a FAIL discards it with the queue, which is the model's choice (R52, R58, R122; assumption log 57). Pages of
QUALIFY before the verdict
(R86, R118, R119, R123): QUAL_READY gives the peer's seed in every state of the run, which it can start only before the
run and in which it is answered after it; QUAL_RESULT before the local end gives the peer's verdict alone,
and the local end without it starts the wait for it (R122, R124). In UP a QUAL_RESULT is answered with the own one,
and REQUAL takes the link back to QUALIFY. -/
def Obligations.VerdictsDecideTheLink : Prop :=
  (∀ (l : LinkId) (s : State) (rest : List SeqEvent) (own peer : Verdict) (lmis : List Nat) (leg : Nat) (c : Instr),
    (s.link l).record.state = .qualify →
    ((∃ n sender, c = .qualResultReceived l ∧ (s.link l).inbox = .page ⟨sender, .qualResult peer n⟩ :: rest ∧
        (s.link l).neighbourTag = some sender ∧ (s.link l).stage.run = .ended ∧ (s.link l).record.peerV = none ∧
        (s.link l).record.localV = some own ∧ (s.link l).record.legLmi = some leg ∧
        (s.link l).record.laneLmis = lmis.map some) ∨
      (c = .runResult l ∧ (s.link l).inbox = .runResult lmis leg own :: rest ∧ (s.link l).stage.run = .running ∧
        (s.link l).record.peerV = some peer)) →
    ∃ t, exec c s = .next t ∧ OnlyLink l s t ∧
      (t.link l).record.localV = some own ∧ (t.link l).record.peerV = some peer ∧
      (t.link l).record.finalV = some (own.worse peer) ∧ (t.link l).record.legLmi = some leg ∧
      (t.link l).record.laneLmis = lmis.map some ∧
      OrdMsg.event ⟨.verdict (own.worse peer) leg, s.uptime, s.readingTakes⟩ ∈ (t.link l).toOrder ∧
      .departure ∈ (t.link l).toEngine ∧
      (c = .runResult l → (s.link l).laneIdle = true → (s.link l).heldBy = none → (s.env l).ownTag.named = true →
        (t.link l).sending = some ⟨.item (.qualResult own leg), pageBytes (s.env l).ownTag (.qualResult own leg), true⟩) ∧
      (c = .runResult l → (s.link l).sending.isSome = true → own.worse peer = .fail →
        (t.link l).sending = (s.link l).sending ∧ ∀ it ∈ (t.link l).tx, it.isBye = true) ∧
      (own.worse peer = .pass → (t.link l).record.state = .up ∧ (t.link l).gate = true ∧
        (t.link l).record.retries = 0 ∧ (t.link l).record.upSince = some s.uptime ∧
        (t.link l).toLog = (s.link l).toLog) ∧
      (own.worse peer = .marginal → (t.link l).record.state = .up ∧ (t.link l).gate = true ∧
        (t.link l).record.lastReason = .disc .qualityMarginal) ∧
      (own.worse peer = .fail → (t.link l).record.lastReason = .disc .qualityFail ∧ (t.link l).gate = false ∧
        (t.link l).record.state = (if (s.link l).record.retries < (s.legPlan l).retryLimit then .backoff else .held))) ∧
  (∀ (l : LinkId) (s : State) (sender : Tag) (rest : List SeqEvent), (s.link l).neighbourTag = some sender →
    (∀ seed, (s.link l).inbox = .page ⟨sender, .qualReady seed⟩ :: rest → (s.link l).record.state = .qualify →
      (s.link l).stage.granted = false → (s.link l).stage.run = .notStarted →
      ∃ t, exec (.qualReadyReceived l) s = .next t ∧ OnlyLink l s t ∧ t.link l = { s.link l with
        inbox := rest,
        stage := { (s.link l).stage with requalAnswered := true, qualReadyRecv := true, peerSeed := some seed } }) ∧
    (∀ seed, (s.link l).inbox = .page ⟨sender, .qualReady seed⟩ :: rest → (s.link l).record.state = .qualify →
      (s.link l).stage.run = .running →
      ∃ t, exec (.qualReadyReceived l) s = .next t ∧ OnlyLink l s t ∧ t.link l = { s.link l with
        inbox := rest,
        stage := { (s.link l).stage with requalAnswered := true, qualReadyRecv := true, peerSeed := some seed } }) ∧
    (∀ seed own, (s.link l).inbox = .page ⟨sender, .qualReady seed⟩ :: rest → (s.link l).record.state = .qualify →
      (s.link l).stage.run = .ended → (s.link l).ownSeed = some own → (s.link l).tx.length < 4 →
      ∃ t, exec (.qualReadyReceived l) s = .next t ∧ OnlyLink l s t ∧ t.link l = { s.link l with
        inbox := rest, tx := (s.link l).tx ++ [.qualReady own],
        stage := { (s.link l).stage with requalAnswered := true, qualReadyRecv := true, peerSeed := some seed } }) ∧
    (∀ v n, (s.link l).inbox = .page ⟨sender, .qualResult v n⟩ :: rest → (s.link l).record.state = .qualify →
      (s.link l).record.peerV = none → (s.link l).stage.run ≠ .ended →
      ∃ t, exec (.qualResultReceived l) s = .next t ∧ OnlyLink l s t ∧ t.link l = { s.link l with
        inbox := rest, stage := { (s.link l).stage with requalAnswered := true },
        record := { (s.link l).record with peerV := some v } }) ∧
    (∀ v n own, (s.link l).inbox = .page ⟨sender, .qualResult v n⟩ :: rest → (s.link l).record.state = .up →
      (s.link l).record.localV = some own → (s.link l).tx.length < 4 →
      ∃ t, exec (.qualResultReceived l) s = .next t ∧ OnlyLink l s t ∧ t.link l = { s.link l with
        inbox := rest, tx := (s.link l).tx ++ [.qualResult own ((s.link l).record.legLmi.getD 0)] }) ∧
    (∀ lmis leg v, (s.link l).inbox = .runResult lmis leg v :: rest → (s.link l).record.state = .qualify →
      (s.link l).stage.run = .running → (s.link l).record.peerV = none → (s.link l).tx.length < 4 →
      ∃ t, exec (.runResult l) s = .next t ∧ OnlyLink l s t ∧ t.link l = { s.link l with
        inbox := rest, stage := { (s.link l).stage with run := .ended },
        record := { (s.link l).record with laneLmis := lmis.map some, legLmi := some leg, localV := some v },
        tx := (s.link l).tx ++ [.qualResult v leg],
        timers := { (s.link l).timers with peerResult := some 500000000 } }) ∧
    ((s.link l).inbox = .page ⟨sender, .requal⟩ :: rest → (s.link l).record.state = .up →
      ∃ t, exec (.requalReceived l) s = .next t ∧ OnlyLink l s t ∧ (t.link l).record.state = .qualify ∧
        (t.link l).record.prev = .up ∧ (t.link l).gate = false ∧ (t.link l).record.localV = none ∧
        (t.link l).record.flap = min 255 ((s.link l).record.flap + 1) ∧
        (t.link l).record.lastReason = (s.link l).record.lastReason ∧
        (t.link l).toEngine = (s.link l).toEngine ++ [.request (s.legPlan l).priority]))

/-- BYE from the neighbour, or before it from the tag on the pilot lane, ends a conversation (R81): ADMIN and PLAN in
LISTEN, REFUSED in HELD with PEER_REFUSED. A KEEPALIVE of another tag in UP is NEIGHBOUR_CHANGED (R85). The 16th page
error in PAIRING is NOISY_SIDEBAND (R68). -/
def Obligations.ConversationsEnd : Prop :=
  ∀ (l : LinkId) (s : State) (sender : Tag) (rest : List SeqEvent),
    (∀ r, (s.link l).inbox = .page ⟨sender, .bye r⟩ :: rest →
      ∃ t, exec (.byeReceived l) s = .next t ∧ OnlyLink l s t ∧
        ((s.link l).record.state.conversing = true → (s.link l).neighbourTag = some sender ∨
            ((s.link l).neighbourTag = none ∧ (s.link l).pilotTag = some sender) →
          (t.link l).record.prev = (s.link l).record.state ∧
          (r = .admin → (t.link l).record.state = .listen ∧ (t.link l).record.lastReason = .peerAdmin) ∧
          (r = .plan → (t.link l).record.state = .listen ∧ (t.link l).record.lastReason = .peerPlan) ∧
          (r = .refused → (t.link l).record.state = .held ∧ (t.link l).record.lastReason = .disc .peerRefused ∧
            (t.link l).toLog = (s.link l).toLog ++ [⟨.peerRefused, BitVec.ofNat 32 (s.link l).record.state.code,
              (s.env l).expected, some sender, (s.link l).record.farExpect, s.uptime⟩])) ∧
        ((s.link l).record.state.conversing = false ∨ (∃ x, (s.link l).neighbourTag = some x ∧ x ≠ sender) →
          t.link l = { s.link l with inbox := rest })) ∧
    ((s.link l).inbox = .page ⟨sender, .keepalive⟩ :: rest →
      ∃ t, exec (.keepaliveReceived l) s = .next t ∧ OnlyLink l s t ∧
        ((s.link l).record.state ≠ .up ∨ (s.link l).neighbourTag = some sender →
          t.link l = { s.link l with inbox := rest }) ∧
        ((s.link l).record.state = .up → (s.link l).neighbourTag ≠ some sender →
          (t.link l).record = { (s.link l).record with
            state := .backoff, prev := .up, lastReason := .disc .neighbourChanged, upSince := none,
            flap := min 255 ((s.link l).record.flap + 1) } ∧
          (t.link l).timers = { backoff := some 10000000, announce := some 1000000 } ∧
          (t.link l).toLog = (s.link l).toLog ++ [⟨.neighbourChanged,
            BitVec.ofNat 32 (min 255 ((s.link l).record.flap + 1)), (s.link l).neighbourTag, some sender,
            (s.link l).record.farExpect, s.uptime⟩])) ∧
    ((s.link l).inbox = .pageError :: rest →
      ∃ t, exec (.pageErrorReport l) s = .next t ∧ OnlyLink l s t ∧
        ((s.link l).record.state ≠ .pairing → t.link l = { s.link l with inbox := rest }) ∧
        ((s.link l).record.state = .pairing → (s.link l).stage.tagged + 1 < 16 → t.link l = { s.link l with
          inbox := rest, stage := { (s.link l).stage with tagged := (s.link l).stage.tagged + 1 } }) ∧
        ((s.link l).record.state = .pairing → 16 ≤ (s.link l).stage.tagged + 1 →
          (t.link l).record.lastReason = .noisySideband ∧ (t.link l).record.state =
            (if (s.link l).record.retries < (s.legPlan l).retryLimit then .backoff else .held)))

/-- The echo samples (R105 to R108): the requests fall due in turn; a reply within 65535 ns makes its OUTSTANDING sample
ANSWERED with its X, a later one LOST; the expiry of its timer makes it LOST. With no sample open the measurement ends,
by a reply or by an expiry, with the median of three X values, the smaller of two, the one, or no length. A reply to a
sample that is not OUTSTANDING, or with no measurement running, is discarded, and such a sample has no expiry (R106). A
reply is judged when it is taken, also one handed over in an earlier VERIFY, the model's choice (assumption log 61).
LENGTH_RESULT in VERIFY (R69, R78, R109): the length is recorded; one that differs from the expected by more than the
tolerance is LENGTH, and under ENFORCE refuses the cable; under REPORT, within the tolerance, with no expected length and
with no measured length the checks have passed and TRAIN_READY is announced. In every other state it is discarded. -/
def Obligations.LengthIsMeasuredAndChecked : Prop :=
  (∀ (l : LinkId) (s : State),
    ((s.link l).echo.running = true → (s.link l).echo.timer ≠ none → (s.link l).tx.length < 4 →
      ((s.link l).echo.next = 1 → ∃ t, exec (.echoReqDue l) s = .next t ∧ OnlyLink l s t ∧ t.link l = { s.link l with
        echo := { (s.link l).echo with next := 2, timer := some 1000000 }, tx := (s.link l).tx ++ [.echoReq 1] }) ∧
      ((s.link l).echo.next = 2 → ∃ t, exec (.echoReqDue l) s = .next t ∧ OnlyLink l s t ∧ t.link l = { s.link l with
        echo := { (s.link l).echo with next := 3, timer := none }, tx := (s.link l).tx ++ [.echoReq 2] })) ∧
    ((s.link l).echo.running = false ∨ (s.link l).echo.timer = none →
      ∃ t, exec (.echoReqDue l) s = .next t ∧ OnlyLink l s t ∧ t.link l = s.link l) ∧
    (∀ (n : Fin 3) h stamp rest, (s.link l).echo.replies = ⟨n, h, stamp⟩ :: rest →
      ∃ t, exec (.echoReplyReceived l) s = .next t ∧ OnlyLink l s t ∧ (t.link l).echo.replies = rest ∧
        (t.link l).record = (s.link l).record ∧
        ((s.link l).echo.running = false ∨ (∀ sent left, (s.link l).echo.samples[n] ≠ .outstanding sent left) →
          t.link l = { s.link l with echo := { (s.link l).echo with replies := rest } }) ∧
        (∀ sent left, (s.link l).echo.running = true → (s.link l).echo.samples[n] = .outstanding sent left →
          (t.link l).echo.samples[n] = (if stamp - sent ≤ 65535 then
            .answered (stamp - sent) h (min (stamp - sent - h - 40) 4095) else .lost) ∧
          (∀ k : Fin 3, k ≠ n → (t.link l).echo.samples[k] = (s.link l).echo.samples[k]) ∧
          ((∃ k : Fin 3, k ≠ n ∧ (s.link l).echo.samples[k].isOpen = true) →
            (t.link l).inbox = (s.link l).inbox ∧ (t.link l).echo.running = true) ∧
          ((∀ k : Fin 3, k ≠ n → (s.link l).echo.samples[k].isOpen = false) →
            LengthReported (s.link l) (t.link l)))) ∧
    (∀ n : Fin 3, (s.link l).echo.running = false ∨ (∀ sent left, (s.link l).echo.samples[n] ≠ .outstanding sent left) →
      ∃ t, exec (.echoReplyTimerExpiry l n) s = .next t ∧ OnlyLink l s t ∧ t.link l = s.link l) ∧
    (∀ (n : Fin 3) sent left, (s.link l).echo.running = true →
      (s.link l).echo.samples[n] = .outstanding sent left →
      ∃ t, exec (.echoReplyTimerExpiry l n) s = .next t ∧ OnlyLink l s t ∧ (t.link l).echo.samples[n] = .lost ∧
        (t.link l).record = (s.link l).record ∧
        (∀ k : Fin 3, k ≠ n → (t.link l).echo.samples[k] = (s.link l).echo.samples[k]) ∧
        ((∃ k : Fin 3, k ≠ n ∧ (s.link l).echo.samples[k].isOpen = true) →
          (t.link l).inbox = (s.link l).inbox ∧ (t.link l).echo.running = true) ∧
        ((∀ k : Fin 3, k ≠ n → (s.link l).echo.samples[k].isOpen = false) →
          LengthReported (s.link l) (t.link l)))) ∧
  (∀ (l : LinkId) (s : State) (m : Option Nat) (rest : List SeqEvent), (s.link l).inbox = .lengthResult m :: rest →
    ∃ t, exec (.lengthResult l) s = .next t ∧ OnlyLink l s t ∧
      ((s.link l).record.state ≠ .verify → t.link l = { s.link l with inbox := rest }) ∧
      ((s.link l).record.state = .verify →
        (∀ x, m = some x → (t.link l).record.length = some x) ∧
        (∀ x want tol, m = some x → (s.legPlan l).length = some (want, tol) → (x + tol < want ∨ want + tol < x) →
          (∃ d ∈ (t.link l).toLog, d.kind = .length ∧ d.detail = BitVec.ofNat 32 x) ∧
          ((s.legPlan l).strict = .enforce → (t.link l).record.state = .held ∧ (t.link l).bye = some ⟨.refused, 2⟩ ∧
            (t.link l).record.lastReason = .disc .length) ∧
          ((s.legPlan l).strict = .report → (s.link l).stage.trainReadySent = false → (s.link l).tx.length < 4 →
            (t.link l).record =
              { (s.link l).record with length := some x, lastReason := .disc .length } ∧
            (t.link l).stage = { (s.link l).stage with verifyPassed := true } ∧
            (t.link l).tx = (s.link l).tx ++ [.trainReady] ∧
            (t.link l).toLog = (s.link l).toLog ++ [⟨.length, BitVec.ofNat 32 x, (s.env l).expected,
              (s.link l).neighbourTag, (s.link l).record.farExpect, s.uptime⟩])) ∧
        ((m = none ∧ (s.link l).record.length = none) ∨ (s.legPlan l).length = none ∨
            (∃ x want tol, m = some x ∧ (s.legPlan l).length = some (want, tol) ∧ x ≤ want + tol ∧ want ≤ x + tol) → (s.link l).stage.trainReadySent = false → (s.link l).tx.length < 4 →
          (t.link l).stage = { (s.link l).stage with verifyPassed := true } ∧ (t.link l).toLog = (s.link l).toLog ∧
          (t.link l).tx = (s.link l).tx ++ [.trainReady] ∧ (t.link l).record.state = .verify ∧
          (m = none → (t.link l).record = (s.link l).record))))

/-- The skew measurement (R101 to R103): in TRAIN a marker goes out on every lane; a marker on a physical lane is
the near lane's that the split gives it (R3); the first marker after a gap of 2048 UI, which the model counts from the
entry to TRAIN or from the last marker (assumption log 26), is the reference, each lane's first within 1024 UI of it gives its offset. The end of the measurement (R102,
R103): a lane without an offset is LANE_MISSING, the lowest; a span above 255 UI is SKEW_EXCESS; else each lane is
delayed by the span less its offset, so that all lanes line up. The lanes of the leg are those of the effective split,
and a marker's lane is theirs, also before its ROW_CHANGE (the model's choice, assumption log 62 and 67). The sequencer then records them and announces TRAINED,
or fails with a retry (R70). -/
def Obligations.SkewIsMeasuredAndTakenOut : Prop :=
  (∀ (l : LinkId) (s : State),
    (∃ t, exec (.markerTx l) s = .next t ∧ OnlyLink l s t ∧
      t.link l = if (s.link l).record.state = .train then { s.link l with wire := (s.link l).wire ++ [.markers] }
        else s.link l) ∧
    (∀ (port : PortId) (lane near : Lane) (time : Nat), nearLane (s.splitOf port) lane = (legOf l, near) →
      portOf l = port → ∃ t, exec (.markerDetected port lane time) s = .next t ∧ OnlyLink l s t ∧
        ((s.link l).record.state = .train →
          (∀ last, (s.link l).skew = .gap last → t.link l = { s.link l with
            skew := if last + 2048 ≤ time then .collecting time ((Bank.fill 8 none).set near (some 0))
              else .gap time }) ∧
          (∀ ref offsets, (s.link l).skew = .collecting ref offsets → t.link l = { s.link l with
            skew := .collecting ref (if offsets[near] = none ∧ time - ref < 1024 then
              offsets.set near (some (time - ref)) else offsets) })) ∧
        ((s.link l).record.state ≠ .train ∨ (s.link l).skew = .idle → t.link l = s.link l))) ∧
  (∀ (l : LinkId) (s : State), (s.link l).record.state = .train →
    (∀ ref offsets, (s.link l).skew = .collecting ref offsets →
      ∃ t, exec (.skewMeasurementEnd l) s = .next t ∧ OnlyLink l s t ∧ (t.link l).skew = .idle ∧
        (t.link l).record = (s.link l).record ∧
        (∀ i : Lane, i.val < (s.env l).width → offsets[i] = none → (∀ k : Lane, k < i → offsets[k] ≠ none) →
          (t.link l).inbox = (s.link l).inbox ++ [.skewResult (.missing i)]) ∧
        ((∀ i : Lane, i.val < (s.env l).width → offsets[i] ≠ none) →
          ∃ span, (∀ i : Lane, i.val < (s.env l).width → ∀ a, offsets[i] = some a → a ≤ span) ∧
            (span = 0 ∨ ∃ i : Lane, i.val < (s.env l).width ∧ offsets[i] = some span) ∧
            (255 < span → (t.link l).inbox = (s.link l).inbox ++ [.skewResult (.excess span)] ∧
              (t.link l).delays = (s.link l).delays) ∧
            (span ≤ 255 → ∃ ds : List Nat, (t.link l).delays = some ds ∧
              (t.link l).inbox = (s.link l).inbox ++ [.skewResult (.applied span ds)] ∧
              ∀ i : Lane, i.val < (s.env l).width → ∀ a, offsets[i] = some a → ds[i.val]? = some (span - a)))) ∧
    (∀ o rest, (s.link l).inbox = .skewResult o :: rest →
      ∃ t, exec (.skewResult l) s = .next t ∧ OnlyLink l s t ∧
        match o with
        | .applied span ds => (s.link l).stage.trainedRecv = false → (s.link l).tx.length < 4 →
            t.link l = { s.link l with
              inbox := rest, tx := (s.link l).tx ++ [.trained],
              record := { (s.link l).record with skewSpan := some span, deskew := ds.map some } }
        | .excess span => (t.link l).record.skewSpan = some span ∧
            (t.link l).record.lastReason = .disc .skewExcess ∧ (t.link l).record.deskew = (s.link l).record.deskew ∧
            (t.link l).record.state =
              (if (s.link l).record.retries < (s.legPlan l).retryLimit then .backoff else .held)
        | .missing _ => (t.link l).record.lastReason = .disc .laneMissing ∧ (t.link l).record.state =
              (if (s.link l).record.retries < (s.legPlan l).retryLimit then .backoff else .held)))

/-- TAKE_DOWN stops the link with BYE(ADMIN) and keeps it in OFF, admin-down (R87, R169); BRING_UP clears the flag and
the retries, and takes a link in OFF or HELD that may run to LISTEN (R65, R88, R168). Each is answered to its order.
REQUALIFY in UP takes a present link to QUALIFY with the order's priority and announces REQUAL (R86, R170); in any other
state, and to a STATE_QUERY in every state, the sequencer answers with its state (R170, R172, R177). A NOT PRESENT link
answers OFF to both and does not requalify (R170, R177); that the old leg-1 link of a port made WHOLE does so before its
ROW_CHANGE, whatever its record still shows, is the model's choice (assumption log 63). -/
def Obligations.SequencersObeyTheHost : Prop :=
  ∀ (l : LinkId) (s : State) (ref : Word) (rest : List SeqEvent),
    ((s.link l).inbox = .takeDown ref :: rest →
      ∃ t, exec (.takeDownEvent l) s = .next t ∧ OnlyLink l s t ∧ (t.link l).record.state = .off ∧
        (t.link l).record.adminDown = true ∧ (t.link l).record.lastReason = .adminDown ∧ (t.link l).gate =
          (if (s.link l).record.state = .off then (s.link l).gate else false) ∧
        ((s.link l).record.state.conversing = true → (t.link l).bye = some ⟨.admin, 2⟩) ∧
        (t.link l).toOrder.getLast? = some (.answer ref (.acted (decide ((s.link l).record.state ≠ .off))))) ∧
    ((s.link l).inbox = .bringUp ref :: rest →
      ∃ t, exec (.bringUpEvent l) s = .next t ∧ OnlyLink l s t ∧ (t.link l).record.adminDown = false ∧
        (t.link l).record.retries = 0 ∧ (t.link l).record.lastReason = (s.link l).record.lastReason ∧
        (t.link l).record.state = (if (s.link l).record.state ∈ [LinkState.off, .held] ∧
            (s.row (portOf l)).usable ∧ (s.env l).present ∧ (s.link l).record.selfCheck = false
          then .listen else (s.link l).record.state) ∧
        (t.link l).toOrder.getLast? = some (.answer ref (.acted ((s.row (portOf l)).usable && (s.env l).present &&
          !(s.link l).record.selfCheck)))) ∧
    (∀ prio, (s.link l).inbox = .requalify ref prio :: rest →
      ((s.link l).record.state = .up → (s.env l).present = true →
        ∃ t, exec (.requalifyEvent l) s = .next t ∧ OnlyLink l s t ∧ (t.link l).record.state = .qualify ∧
          (t.link l).record.prev = .up ∧ (t.link l).requalRef = some ref ∧ (t.link l).gate = false ∧
          (t.link l).record.lastReason = (s.link l).record.lastReason ∧
          (t.link l).stage = { byRequalify := true } ∧
          (t.link l).toEngine = (s.link l).toEngine ++ [.request prio] ∧
          ((s.link l).tx = [] → (t.link l).tx = [.requal]) ∧
          (t.link l).toOrder.getLast? = some (.answer ref .started)) ∧
      ((s.link l).record.state ≠ .up ∨ (s.env l).present = false →
        ∃ t, exec (.requalifyEvent l) s = .next t ∧ OnlyLink l s t ∧ t.link l = { s.link l with
          inbox := rest, toOrder := (s.link l).toOrder ++ [.answer ref (.state
            (if (s.env l).present then (s.link l).record.state else .off))] })) ∧
    ((s.link l).inbox = .stateQuery ref :: rest →
      ∃ t, exec (.stateQuery l) s = .next t ∧ OnlyLink l s t ∧ t.link l = { s.link l with
        inbox := rest, toOrder := (s.link l).toOrder ++ [.answer ref (.state
          (if (s.env l).present then (s.link l).record.state else .off))] })

/-! ## Lane Test Engines -/

/-- Engine requests, departures and grants (R112 to R116, R119). A request at a FREE engine is granted at once; at
another it joins after every entry of equal or higher priority. A departure removes the link's entry, or, of the
owner, grants the head of the list. A grant taken in QUALIFY draws a seed that is not 0 and announces QUAL_READY;
elsewhere it is discarded. A SELF_CHECK reaches its engine (R114, R130, R172): NOT_PERMITTED where a self-check of its
port is owner or waits, and where a present link of the port is in neither OFF nor HELD; at a FREE engine it runs at
once on all 8 lanes with its own window, and both links of the port show it; at another engine it waits. A self-check
at the head of the list is judged and run in the same way when the engine is released. That NOT_PERMITTED is queued by
the step in which the engine refuses is the model's reading (assumption log 35). -/
def Obligations.EnginesAreGrantedInTurn : Prop :=
  (∀ (l : LinkId) (s : State) (e : EngineId), engineOfLink l = e →
    (∀ prio rest, (s.link l).toEngine = .request prio :: rest →
      let s' := s.putLink l { s.link l with toEngine := rest }
      ((s.engine e).phase = .free → (s.engine e).waiting = [] → ∃ t, exec (.engineRequest l) s = .next t ∧
        t.engine e = { Engine.free [] with phase := .granted, owner := some (.link l) } ∧
        t.link l = { s.link l with toEngine := rest, inbox := (s.link l).inbox ++ [.grant] } ∧
        (∀ k, k ≠ l → t.link k = s.link k) ∧ (∀ f, f ≠ e → t.engine f = s.engine f) ∧
        { t with links := s.links, engines := s.engines } = s) ∧
      ((s.engine e).phase ≠ .free → ∃ list, exec (.engineRequest l) s =
          .next (s'.putEngine e { s.engine e with waiting := list }) ∧
        ∃ a b, (s.engine e).waiting = a ++ b ∧ list = a ++ ⟨.link l, prio⟩ :: b ∧
          (∀ w ∈ a, prio ≤ w.prio) ∧ ∀ w ∈ b.head?, w.prio < prio)) ∧
    (∀ rest, (s.link l).toEngine = .departure :: rest →
      let s' := s.putLink l { s.link l with toEngine := rest }
      ((s.engine e).owner ≠ some (.link l) → exec (.engineDeparture l) s = .next (s'.putEngine e { s.engine e with
        waiting := (s.engine e).waiting.filter fun w => !decide (w.who = .link l) })) ∧
      ((s.engine e).owner = some (.link l) → (s.engine e).waiting = [] →
        exec (.engineDeparture l) s = .next (s'.putEngine e (Engine.free []))) ∧
      (∀ k p ws, (s.engine e).owner = some (.link l) → (s.engine e).waiting = ⟨.link k, p⟩ :: ws → k ≠ l →
        ∃ t, exec (.engineDeparture l) s = .next t ∧ (t.engine e).phase = .granted ∧
          (t.engine e).owner = some (.link k) ∧
          (t.engine e).waiting = (ws.filter fun w => !decide (w.who = .link l)) ∧
          t.link k = { s.link k with inbox := (s.link k).inbox ++ [.grant] }) ∧
      (∀ c p ws, (s.engine e).owner = some (.link l) → (s.engine e).waiting = ⟨.self c, p⟩ :: ws →
        ((∀ leg : Fin 2, (s.env (linkOf c.port leg)).present = true →
            (s.link (linkOf c.port leg)).record.state = .off ∨ (s.link (linkOf c.port leg)).record.state = .held) →
          ∃ t, exec (.engineDeparture l) s = .next t ∧ (t.engine e).phase = .running ∧
            (t.engine e).owner = some (.self c) ∧ (t.engine e).window = some (c.units * 65536) ∧
            (t.engine e).waiting = (ws.filter fun w => !decide (w.who = .link l)) ∧
            (t.engine e).words = Bank.fill 8 0 ∧ (t.engine e).errors = Bank.fill 8 0 ∧
            ∀ leg : Fin 2, (t.link (linkOf c.port leg)).record =
              { (s.link (linkOf c.port leg)).record with selfCheck := true }) ∧
        ((∃ leg : Fin 2, (s.env (linkOf c.port leg)).present = true ∧
            (s.link (linkOf c.port leg)).record.state ≠ .off ∧ (s.link (linkOf c.port leg)).record.state ≠ .held) →
          ws = [] → exec (.engineDeparture l) s =
            .next ((s'.endOrder c.ref .notPermitted []).putEngine e (Engine.free []))))) ∧
    (∀ rest, (s.link l).inbox = .grant :: rest →
      ((s.link l).record.state ≠ .qualify → exec (.engineGrant l) s =
        .next (s.putLink l { s.link l with inbox := rest })) ∧
      ((s.link l).record.state = .qualify → (s.link l).stage.qualReadySent = false → (s.link l).tx.length < 4 →
        ∃ t seed, exec (.engineGrant l) s = .next t ∧ seed ≠ 0 ∧ t.seedsDrawn = s.seedsDrawn + 1 ∧
          OnlyLink l s { t with seedsDrawn := s.seedsDrawn } ∧ t.link l = { s.link l with
            inbox := rest, stage := { (s.link l).stage with granted := true }, ownSeed := some seed,
            tx := (s.link l).tx ++ [.qualReady seed] }))) ∧
  (∀ (s : State) (c : SelfCheck) (rest : List SelfCheck) (e : EngineId), s.selfRequests = c :: rest →
    engineOf c.port = e →
    let s' := { s with selfRequests := rest }
    ((∃ d, d.port = c.port ∧ ((s.engine e).owner = some (.self d) ∨ ∃ p, ⟨.self d, p⟩ ∈ (s.engine e).waiting)) →
      exec .selfCheckRequest s = .next (s'.endOrder c.ref .notPermitted [])) ∧
    ((∀ d, d.port = c.port → (s.engine e).owner ≠ some (.self d) ∧ ∀ p, ⟨.self d, p⟩ ∉ (s.engine e).waiting) →
      ((s.engine e).phase ≠ .free → ∃ list, exec .selfCheckRequest s =
          .next (s'.putEngine e { s.engine e with waiting := list }) ∧ ⟨.self c, c.prio⟩ ∈ list ∧
          ∀ w ∈ (s.engine e).waiting, w ∈ list) ∧
      ((s.engine e).phase = .free → (s.engine e).waiting = [] →
        ((∃ leg : Fin 2, (s.env (linkOf c.port leg)).present = true ∧
            (s.link (linkOf c.port leg)).record.state ≠ .off ∧ (s.link (linkOf c.port leg)).record.state ≠ .held) →
          exec .selfCheckRequest s = .next ((s'.endOrder c.ref .notPermitted []).putEngine e (Engine.free []))) ∧
        ((∀ leg : Fin 2, (s.env (linkOf c.port leg)).present = true →
            (s.link (linkOf c.port leg)).record.state = .off ∨ (s.link (linkOf c.port leg)).record.state = .held) →
          ∃ t, exec .selfCheckRequest s = .next t ∧ (t.engine e).phase = .running ∧
            (t.engine e).owner = some (.self c) ∧ (t.engine e).window = some (c.units * 65536) ∧
            (t.engine e).runLimit = some (c.units * 65536 * 5 / 2 + 4000000) ∧
            (t.engine e).waiting = [] ∧ t.selfRequests = rest ∧ t.contexts = s.contexts ∧ t.hostMem = s.hostMem ∧
            ∀ leg : Fin 2, (t.link (linkOf c.port leg)).record =
              { (s.link (linkOf c.port leg)).record with selfCheck := true } ∧ (t.link (linkOf c.port leg)).bye = none))))

/-- A run starts when a link in QUALIFY has its grant and has sent and received QUAL_READY (R119, R120): its engine
counts from 0 over the larger of the two windows, with the seed of the end whose tag is lower; a lane that has had its
start block under the grant keeps it (the model's reading, assumption log 50). QUAL_READY received
last starts it, and so does QUAL_READY sent last. -/
def Obligations.RunsStartWithBothReady : Prop :=
  ∀ (l : LinkId) (s : State) (e : EngineId) (own : Word) (n : Neighbour) (c : Instr) (peer : Word),
    engineOfLink l = e → (s.engine e).owner = some (.link l) → (s.link l).record.state = .qualify →
    (s.link l).stage.granted = true → (s.link l).stage.run = .notStarted → (s.link l).ownSeed = some own →
    (s.link l).record.neighbour = some n → own ≠ 0 → peer ≠ 0 →
    ((∃ rest, c = .qualReadyReceived l ∧ (s.link l).inbox = .page ⟨n.tag, .qualReady peer⟩ :: rest ∧
        (s.link l).stage.qualReadySent = true) ∨
      (∃ now b h, c = .pageTxEnd l now ∧ (s.link l).sending = some ⟨.item (.qualReady own), b, h⟩ ∧
        (s.link l).stage.qualReadyRecv = true ∧ (s.link l).stage.peerSeed = some peer)) →
    ∃ t, exec c s = .next t ∧ (t.engine e).phase = .running ∧ (t.engine e).owner = some (.link l) ∧
      (t.engine e).window = some (max (s.classOf l).units ((s.link l).peerUnits.getD 0) * 65536) ∧
      (t.engine e).seed = some (if n.tag.lower (s.ownTag l) then peer else own) ∧
      (t.engine e).words = Bank.fill 8 0 ∧ (t.engine e).errors = Bank.fill 8 0 ∧
      (t.engine e).place = (s.engine e).place ∧
      (t.engine e).waiting = (s.engine e).waiting ∧ (t.link l).stage.run = .running ∧
      (t.link l).record = (s.link l).record ∧ (t.link l).timers.qualifyWait = none ∧
      (t.link l).timers.peerSilent = some 8000000 ∧ (∀ f, f ≠ e → t.engine f = s.engine f) ∧
      (∀ k, k ≠ l → t.link k = s.link k) ∧ t.contexts = s.contexts ∧ t.hostMem = s.hostMem

/-- A run counts (R121): a lane of the run counts from its start block, each word once, an error where the word differs
from the pattern (a free function, assumption log 9) at the lane's place in it, up to 65535, and no word past the window; under a grant a start block and
the words after it move the place alone (the model's reading, assumption log 50). The word is the one that comes out of
the lane's receive polarity and deskew delay, and the lanes are those of the effective split, also before its ROW_CHANGE
(the model's choices, assumption log 65 and 62). The run ends with the last word that
every lane counts, or at the run limit, where each lane's words not received are its errors. The end gives each lane's
LMI and the local verdict to the sequencer, and the engine grants the head of its list, a link or a self-check, or is
FREE (R115, R122, R126, R128). The end of a self-check's run gives its order the eight LMIs and pass flags, in the same
step (assumption log 35), and both links of the port leave it: one in OFF that may run is restarted at LISTEN (R65, R89,
R131, R173). -/
def Obligations.RunsCountAndEnd : Prop :=
  (∀ (s : State) (e : EngineId) (lane : Lane) (word : BitVec 64),
    ((s.engine e).phase = .free ∨ (s.engine e).owner = none →
      exec (.startBlockReceived e lane) s = .next s ∧ exec (.testWordReceived e lane word) s = .next s) ∧
    ((s.engine e).phase ≠ .running → exec (.runLimitExpiry e) s = .next s) ∧
    ∀ o, (s.engine e).owner = some o → (s.engine e).phase ≠ .free →
      (s.runLanes o ≤ lane.val →
        exec (.startBlockReceived e lane) s = .next s ∧ exec (.testWordReceived e lane word) s = .next s) ∧
      (lane.val < s.runLanes o →
        ((s.engine e).place[lane] = none →
          exec (.startBlockReceived e lane) s = .next (s.putEngine e
            { s.engine e with place := (s.engine e).place.set lane (some 0) }) ∧
          exec (.testWordReceived e lane word) s = .next s) ∧
        (∀ n, (s.engine e).place[lane] = some n →
          ((s.engine e).phase = .granted → exec (.testWordReceived e lane word) s = .next (s.putEngine e
            { s.engine e with place := (s.engine e).place.set lane (some (n + 1)) })) ∧
          ∀ seed window, (s.engine e).phase = .running → (s.engine e).seed = some seed →
            (s.engine e).window = some window →
            (window ≤ (s.engine e).words[lane] → exec (.testWordReceived e lane word) s = .next s) ∧
            ((s.engine e).words[lane] < window → ((s.engine e).words[lane] + 1 < window ∨
                ∃ k : Lane, k ≠ lane ∧ k.val < s.runLanes o ∧ (s.engine e).words[k] < window) →
              exec (.testWordReceived e lane word) s = .next (s.putEngine e { s.engine e with
                place := (s.engine e).place.set lane (some (n + 1)),
                words := (s.engine e).words.set lane ((s.engine e).words[lane] + 1),
                errors := if word = Config.patternWord seed (s.patternLane o lane) n then (s.engine e).errors else
                  (s.engine e).errors.set lane (min 65535 ((s.engine e).errors[lane] + 1)) }))))) ∧
  (∀ (s : State) (e : EngineId) (o : Owner) (window : Nat) (c : Instr) (errs : Lane → Nat),
    (s.engine e).phase = .running → (s.engine e).owner = some o → (s.engine e).window = some window →
    ((c = .runLimitExpiry e ∧
        ∀ i : Lane, errs i = min 65535 ((s.engine e).errors[i] + (window - (s.engine e).words[i]))) ∨
      (∃ (lane : Lane) (word : BitVec 64) (n : Nat) (seed : Word), c = .testWordReceived e lane word ∧
        (s.engine e).seed = some seed ∧ lane.val < s.runLanes o ∧ (s.engine e).place[lane] = some n ∧
        (s.engine e).words[lane] + 1 = window ∧
        (∀ k : Lane, k ≠ lane → k.val < s.runLanes o → window ≤ (s.engine e).words[k]) ∧
        ∀ i : Lane, errs i = if i = lane ∧ word ≠ Config.patternWord seed (s.patternLane o lane) n then
          min 65535 ((s.engine e).errors[i] + 1) else (s.engine e).errors[i])) →
    ∃ t lmis, exec c s = .next t ∧ lmis.length = s.runLanes o ∧
      (∀ i : Lane, i.val < s.runLanes o → lmis[i.val]? = some (laneLmi window (errs i))) ∧
      (∀ f, f ≠ e → t.engine f = s.engine f) ∧ t.rows = s.rows ∧ t.log = s.log ∧ t.hostMem = s.hostMem ∧
      (∀ l result, o = .link l → result = SeqEvent.runResult lmis (legLmiOf lmis)
          (localVerdict (s.classOf l) (legLmiOf lmis) ((s.link l).record.skewSpan.getD 0)) →
        ((s.engine e).waiting = [] → t.engine e = Engine.free [] ∧
          t.link l = { s.link l with inbox := (s.link l).inbox ++ [result] } ∧
          (∀ k, k ≠ l → t.link k = s.link k) ∧ { t with links := s.links, engines := s.engines } = s) ∧
        (∀ k p ws, (s.engine e).waiting = ⟨.link k, p⟩ :: ws → k ≠ l →
          t.engine e = { Engine.free ws with phase := .granted, owner := some (.link k) } ∧
          t.link l = { s.link l with inbox := (s.link l).inbox ++ [result] } ∧
          t.link k = { s.link k with inbox := (s.link k).inbox ++ [.grant] } ∧
          (∀ j, j ≠ l → j ≠ k → t.link j = s.link j) ∧ { t with links := s.links, engines := s.engines } = s) ∧
        (∀ x p ws, (s.engine e).waiting = ⟨.self x, p⟩ :: ws →
          (∀ leg : Fin 2, (s.env (linkOf x.port leg)).present = true →
            (s.link (linkOf x.port leg)).record.state = .off ∨ (s.link (linkOf x.port leg)).record.state = .held) →
          (t.engine e).phase = .running ∧ (t.engine e).owner = some (.self x) ∧ (t.engine e).waiting = ws ∧
          (t.link l).inbox = (s.link l).inbox ++ [result])) ∧
      (∀ x ctx thr port units, o = .self x → s.seqsOk → ctx ∈ s.contexts → ctx.seq = x.ref →
        ctx.phase = .active (.selfCheck port units thr) .atWork → (s.engine e).waiting = [] →
        t.engine e = Engine.free [] ∧ { ctx with phase := .closing .ok false } ∈ t.contexts ∧
        (∃ flags, flags < 256 ∧ (∀ i : Lane, flags.testBit i.val = decide (x.threshold ≤ laneLmi window (errs i))) ∧
          s.resultEntry ctx.slot (leBytes 2 x.units ++
            byte1 (lmis.filter fun v => decide (x.threshold ≤ v)).length ++ byte1 flags ++
            (lmis.map (leBytes 2)).flatten) ∈ t.writeQueue) ∧
        s.doneEntry ctx.slot (some x.ref) false .ok ∈ t.writeQueue ∧
        ∀ leg : Fin 2,
          ((s.link (linkOf x.port leg)).record.state = .off → (s.row x.port).usable = true →
            (s.env (linkOf x.port leg)).present = true → (s.link (linkOf x.port leg)).record.adminDown = false →
            (t.link (linkOf x.port leg)).record.state = .listen ∧
            (t.link (linkOf x.port leg)).record.selfCheck = false) ∧
          ((s.link (linkOf x.port leg)).record.state ≠ .off ∨ (s.row x.port).usable = false ∨
            (s.env (linkOf x.port leg)).present = false ∨ (s.link (linkOf x.port leg)).record.adminDown = true →
            (t.link (linkOf x.port leg)).record =
              { (s.link (linkOf x.port leg)).record with selfCheck := false })))

/-! ## Arithmetic -/

/-- The quarter-log (R125): 16 p + f for the highest set bit p and the four-bit fraction f, never falling, and exact at
each power of two. LMIs (R126): the lane LMI is the quarter-log of W minus that of E+1, without loss, and lies between 0
and 480 for every window of 1..16384 units and every error count of 0..65535; the leg LMI is the least of its lanes'. -/
def Obligations.LmisAreDifferencesOfLogs : Prop :=
  ((∀ x, 1 ≤ x → ∃ p r f, 2 ^ p ≤ x ∧ x < 2 ^ (p + 1) ∧ r = x - 2 ^ p ∧ f ≤ 15 ∧
    (4 ≤ p → f = r / 2 ^ (p - 4)) ∧ (p < 4 → f = r * 2 ^ (4 - p)) ∧ quarterLog x = 16 * p + f) ∧
  (∀ x y, 1 ≤ x → x ≤ y → quarterLog x ≤ quarterLog y) ∧ ∀ p, quarterLog (2 ^ p) = 16 * p) ∧
  (∀ u x, 1 ≤ u → u ≤ 16384 → x ≤ 65535 →
    laneLmi (windowWords u) x + quarterLog (x + 1) = quarterLog (u * 65536) ∧ laneLmi (windowWords u) x ≤ 480) ∧
  (∀ u, laneLmi (windowWords u) 0 = quarterLog (u * 65536)) ∧
  ∀ xs : List Nat, xs ≠ [] → legLmiOf xs ∈ xs ∧ ∀ x ∈ xs, legLmiOf xs ≤ x

/-- Verdicts (R128, R129): PASS at the pass threshold within the skew limit, else MARGINAL at the marginal threshold,
else FAIL; the final verdict is FAIL with one FAIL, else MARGINAL with one MARGINAL, else PASS. The sample length is
RTT less H less 40 clamped into 0..4095 (R107); the median is the middle one (R108). -/
def Obligations.VerdictsAndLengthsFollowTheirTables : Prop :=
  (∀ (c : ClassEntry) (leg span : Nat),
    (localVerdict c leg span = .pass ↔ c.pass ≤ leg ∧ span ≤ c.skewLimit) ∧
    (localVerdict c leg span = .fail ↔ leg < c.marginal ∧ ¬(c.pass ≤ leg ∧ span ≤ c.skewLimit))) ∧
  (∀ a b : Verdict, (a.worse b = .fail ↔ a = .fail ∨ b = .fail) ∧ (a.worse b = .pass ↔ a = .pass ∧ b = .pass)) ∧
  (∀ rtt h : Nat, (sampleLength rtt h : Int) = max 0 (min 4095 ((rtt : Int) - h - 40))) ∧
  ∀ a b c : Nat, (median a b c = a ∨ median a b c = b ∨ median a b c = c) ∧
    ((a ≤ b ∧ b ≤ c) ∨ (c ≤ b ∧ b ≤ a) → median a b c = b) ∧ median a b c = median b a c ∧
    median a b c = median a c b
end

