-- ==== Sys2Proof/Laws/State.lean ====
section
/-! SUPPORT. One lemma for each field that a plain update of State leaves as it was, and what a link reads after an
update, so that no later proof unfolds a record update. -/

namespace Sys2Proof.Machine

/-! ## putLink -/

@[simp] theorem State.putLink_pending (s : State) (l : LinkId) (lk : Link) : (s.putLink l lk).pending = s.pending := rfl
@[simp] theorem State.putLink_part (s : State) (l : LinkId) (lk : Link) : (s.putLink l lk).part = s.part := rfl
@[simp] theorem State.putLink_resume (s : State) (l : LinkId) (lk : Link) : (s.putLink l lk).resume = s.resume := rfl
@[simp] theorem State.putLink_attn (s : State) (l : LinkId) (lk : Link) : (s.putLink l lk).attn = s.attn := rfl
@[simp] theorem State.putLink_loadResult (s : State) (l : LinkId) (lk : Link) : (s.putLink l lk).loadResult = s.loadResult := rfl
@[simp] theorem State.putLink_anchorCause (s : State) (l : LinkId) (lk : Link) : (s.putLink l lk).anchorCause = s.anchorCause := rfl
@[simp] theorem State.putLink_anchorLo (s : State) (l : LinkId) (lk : Link) : (s.putLink l lk).anchorLo = s.anchorLo := rfl
@[simp] theorem State.putLink_anchorHi (s : State) (l : LinkId) (lk : Link) : (s.putLink l lk).anchorHi = s.anchorHi := rfl
@[simp] theorem State.putLink_notices (s : State) (l : LinkId) (lk : Link) : (s.putLink l lk).notices = s.notices := rfl
@[simp] theorem State.putLink_noticeEnable (s : State) (l : LinkId) (lk : Link) : (s.putLink l lk).noticeEnable = s.noticeEnable := rfl
@[simp] theorem State.putLink_faultAddr (s : State) (l : LinkId) (lk : Link) : (s.putLink l lk).faultAddr = s.faultAddr := rfl
@[simp] theorem State.putLink_faultKind (s : State) (l : LinkId) (lk : Link) : (s.putLink l lk).faultKind = s.faultKind := rfl
@[simp] theorem State.putLink_faultSource (s : State) (l : LinkId) (lk : Link) : (s.putLink l lk).faultSource = s.faultSource := rfl
@[simp] theorem State.putLink_multiple (s : State) (l : LinkId) (lk : Link) : (s.putLink l lk).multiple = s.multiple := rfl
@[simp] theorem State.putLink_uptime (s : State) (l : LinkId) (lk : Link) : (s.putLink l lk).uptime = s.uptime := rfl
@[simp] theorem State.putLink_anchor (s : State) (l : LinkId) (lk : Link) : (s.putLink l lk).anchor = s.anchor := rfl
@[simp] theorem State.putLink_accepted (s : State) (l : LinkId) (lk : Link) : (s.putLink l lk).accepted = s.accepted := rfl
@[simp] theorem State.putLink_loading (s : State) (l : LinkId) (lk : Link) : (s.putLink l lk).loading = s.loading := rfl
@[simp] theorem State.putLink_anchorRead (s : State) (l : LinkId) (lk : Link) : (s.putLink l lk).anchorRead = s.anchorRead := rfl
@[simp] theorem State.putLink_staleAnchorReads (s : State) (l : LinkId) (lk : Link) : (s.putLink l lk).staleAnchorReads = s.staleAnchorReads := rfl
@[simp] theorem State.putLink_stalePlanReads (s : State) (l : LinkId) (lk : Link) : (s.putLink l lk).stalePlanReads = s.stalePlanReads := rfl
@[simp] theorem State.putLink_posted (s : State) (l : LinkId) (lk : Link) : (s.putLink l lk).posted = s.posted := rfl
@[simp] theorem State.putLink_postMark (s : State) (l : LinkId) (lk : Link) : (s.putLink l lk).postMark = s.postMark := rfl
@[simp] theorem State.putLink_takeSeq (s : State) (l : LinkId) (lk : Link) : (s.putLink l lk).takeSeq = s.takeSeq := rfl
@[simp] theorem State.putLink_contexts (s : State) (l : LinkId) (lk : Link) : (s.putLink l lk).contexts = s.contexts := rfl
@[simp] theorem State.putLink_selfRequests (s : State) (l : LinkId) (lk : Link) : (s.putLink l lk).selfRequests = s.selfRequests := rfl
@[simp] theorem State.putLink_loadReports (s : State) (l : LinkId) (lk : Link) : (s.putLink l lk).loadReports = s.loadReports := rfl
@[simp] theorem State.putLink_rows (s : State) (l : LinkId) (lk : Link) : (s.putLink l lk).rows = s.rows := rfl
@[simp] theorem State.putLink_planBase (s : State) (l : LinkId) (lk : Link) : (s.putLink l lk).planBase = s.planBase := rfl
@[simp] theorem State.putLink_load (s : State) (l : LinkId) (lk : Link) : (s.putLink l lk).load = s.load := rfl
@[simp] theorem State.putLink_loadQueue (s : State) (l : LinkId) (lk : Link) : (s.putLink l lk).loadQueue = s.loadQueue := rfl
@[simp] theorem State.putLink_log (s : State) (l : LinkId) (lk : Link) : (s.putLink l lk).log = s.log := rfl
@[simp] theorem State.putLink_dirty (s : State) (l : LinkId) (lk : Link) : (s.putLink l lk).dirty = s.dirty := rfl
@[simp] theorem State.putLink_writeQueue (s : State) (l : LinkId) (lk : Link) : (s.putLink l lk).writeQueue = s.writeQueue := rfl
@[simp] theorem State.putLink_writing (s : State) (l : LinkId) (lk : Link) : (s.putLink l lk).writing = s.writing := rfl
@[simp] theorem State.putLink_lastSource (s : State) (l : LinkId) (lk : Link) : (s.putLink l lk).lastSource = s.lastSource := rfl
@[simp] theorem State.putLink_retry (s : State) (l : LinkId) (lk : Link) : (s.putLink l lk).retry = s.retry := rfl
@[simp] theorem State.putLink_lastWritten (s : State) (l : LinkId) (lk : Link) : (s.putLink l lk).lastWritten = s.lastWritten := rfl
@[simp] theorem State.putLink_statusGen (s : State) (l : LinkId) (lk : Link) : (s.putLink l lk).statusGen = s.statusGen := rfl
@[simp] theorem State.putLink_ordersTaken (s : State) (l : LinkId) (lk : Link) : (s.putLink l lk).ordersTaken = s.ordersTaken := rfl
@[simp] theorem State.putLink_ordersCompleted (s : State) (l : LinkId) (lk : Link) : (s.putLink l lk).ordersCompleted = s.ordersCompleted := rfl
@[simp] theorem State.putLink_droppedPosts (s : State) (l : LinkId) (lk : Link) : (s.putLink l lk).droppedPosts = s.droppedPosts := rfl
@[simp] theorem State.putLink_statusDue (s : State) (l : LinkId) (lk : Link) : (s.putLink l lk).statusDue = s.statusDue := rfl
@[simp] theorem State.putLink_spacing (s : State) (l : LinkId) (lk : Link) : (s.putLink l lk).spacing = s.spacing := rfl
@[simp] theorem State.putLink_coalesce (s : State) (l : LinkId) (lk : Link) : (s.putLink l lk).coalesce = s.coalesce := rfl
@[simp] theorem State.putLink_holdoff (s : State) (l : LinkId) (lk : Link) : (s.putLink l lk).holdoff = s.holdoff := rfl
@[simp] theorem State.putLink_lastServed (s : State) (l : LinkId) (lk : Link) : (s.putLink l lk).lastServed = s.lastServed := rfl
@[simp] theorem State.putLink_engines (s : State) (l : LinkId) (lk : Link) : (s.putLink l lk).engines = s.engines := rfl
@[simp] theorem State.putLink_seedsDrawn (s : State) (l : LinkId) (lk : Link) : (s.putLink l lk).seedsDrawn = s.seedsDrawn := rfl
@[simp] theorem State.putLink_messages (s : State) (l : LinkId) (lk : Link) : (s.putLink l lk).messages = s.messages := rfl
@[simp] theorem State.putLink_hostMem (s : State) (l : LinkId) (lk : Link) : (s.putLink l lk).hostMem = s.hostMem := rfl

/-! ## dropEvent -/

@[simp] theorem State.dropEvent_pending (s : State) (l : LinkId) : (s.dropEvent l).pending = s.pending := rfl
@[simp] theorem State.dropEvent_part (s : State) (l : LinkId) : (s.dropEvent l).part = s.part := rfl
@[simp] theorem State.dropEvent_resume (s : State) (l : LinkId) : (s.dropEvent l).resume = s.resume := rfl
@[simp] theorem State.dropEvent_attn (s : State) (l : LinkId) : (s.dropEvent l).attn = s.attn := rfl
@[simp] theorem State.dropEvent_loadResult (s : State) (l : LinkId) : (s.dropEvent l).loadResult = s.loadResult := rfl
@[simp] theorem State.dropEvent_anchorCause (s : State) (l : LinkId) : (s.dropEvent l).anchorCause = s.anchorCause := rfl
@[simp] theorem State.dropEvent_anchorLo (s : State) (l : LinkId) : (s.dropEvent l).anchorLo = s.anchorLo := rfl
@[simp] theorem State.dropEvent_anchorHi (s : State) (l : LinkId) : (s.dropEvent l).anchorHi = s.anchorHi := rfl
@[simp] theorem State.dropEvent_notices (s : State) (l : LinkId) : (s.dropEvent l).notices = s.notices := rfl
@[simp] theorem State.dropEvent_noticeEnable (s : State) (l : LinkId) : (s.dropEvent l).noticeEnable = s.noticeEnable := rfl
@[simp] theorem State.dropEvent_faultAddr (s : State) (l : LinkId) : (s.dropEvent l).faultAddr = s.faultAddr := rfl
@[simp] theorem State.dropEvent_faultKind (s : State) (l : LinkId) : (s.dropEvent l).faultKind = s.faultKind := rfl
@[simp] theorem State.dropEvent_faultSource (s : State) (l : LinkId) : (s.dropEvent l).faultSource = s.faultSource := rfl
@[simp] theorem State.dropEvent_multiple (s : State) (l : LinkId) : (s.dropEvent l).multiple = s.multiple := rfl
@[simp] theorem State.dropEvent_uptime (s : State) (l : LinkId) : (s.dropEvent l).uptime = s.uptime := rfl
@[simp] theorem State.dropEvent_anchor (s : State) (l : LinkId) : (s.dropEvent l).anchor = s.anchor := rfl
@[simp] theorem State.dropEvent_accepted (s : State) (l : LinkId) : (s.dropEvent l).accepted = s.accepted := rfl
@[simp] theorem State.dropEvent_loading (s : State) (l : LinkId) : (s.dropEvent l).loading = s.loading := rfl
@[simp] theorem State.dropEvent_anchorRead (s : State) (l : LinkId) : (s.dropEvent l).anchorRead = s.anchorRead := rfl
@[simp] theorem State.dropEvent_staleAnchorReads (s : State) (l : LinkId) : (s.dropEvent l).staleAnchorReads = s.staleAnchorReads := rfl
@[simp] theorem State.dropEvent_stalePlanReads (s : State) (l : LinkId) : (s.dropEvent l).stalePlanReads = s.stalePlanReads := rfl
@[simp] theorem State.dropEvent_posted (s : State) (l : LinkId) : (s.dropEvent l).posted = s.posted := rfl
@[simp] theorem State.dropEvent_postMark (s : State) (l : LinkId) : (s.dropEvent l).postMark = s.postMark := rfl
@[simp] theorem State.dropEvent_takeSeq (s : State) (l : LinkId) : (s.dropEvent l).takeSeq = s.takeSeq := rfl
@[simp] theorem State.dropEvent_contexts (s : State) (l : LinkId) : (s.dropEvent l).contexts = s.contexts := rfl
@[simp] theorem State.dropEvent_selfRequests (s : State) (l : LinkId) : (s.dropEvent l).selfRequests = s.selfRequests := rfl
@[simp] theorem State.dropEvent_loadReports (s : State) (l : LinkId) : (s.dropEvent l).loadReports = s.loadReports := rfl
@[simp] theorem State.dropEvent_rows (s : State) (l : LinkId) : (s.dropEvent l).rows = s.rows := rfl
@[simp] theorem State.dropEvent_planBase (s : State) (l : LinkId) : (s.dropEvent l).planBase = s.planBase := rfl
@[simp] theorem State.dropEvent_load (s : State) (l : LinkId) : (s.dropEvent l).load = s.load := rfl
@[simp] theorem State.dropEvent_loadQueue (s : State) (l : LinkId) : (s.dropEvent l).loadQueue = s.loadQueue := rfl
@[simp] theorem State.dropEvent_log (s : State) (l : LinkId) : (s.dropEvent l).log = s.log := rfl
@[simp] theorem State.dropEvent_dirty (s : State) (l : LinkId) : (s.dropEvent l).dirty = s.dirty := rfl
@[simp] theorem State.dropEvent_writeQueue (s : State) (l : LinkId) : (s.dropEvent l).writeQueue = s.writeQueue := rfl
@[simp] theorem State.dropEvent_writing (s : State) (l : LinkId) : (s.dropEvent l).writing = s.writing := rfl
@[simp] theorem State.dropEvent_lastSource (s : State) (l : LinkId) : (s.dropEvent l).lastSource = s.lastSource := rfl
@[simp] theorem State.dropEvent_retry (s : State) (l : LinkId) : (s.dropEvent l).retry = s.retry := rfl
@[simp] theorem State.dropEvent_lastWritten (s : State) (l : LinkId) : (s.dropEvent l).lastWritten = s.lastWritten := rfl
@[simp] theorem State.dropEvent_statusGen (s : State) (l : LinkId) : (s.dropEvent l).statusGen = s.statusGen := rfl
@[simp] theorem State.dropEvent_ordersTaken (s : State) (l : LinkId) : (s.dropEvent l).ordersTaken = s.ordersTaken := rfl
@[simp] theorem State.dropEvent_ordersCompleted (s : State) (l : LinkId) : (s.dropEvent l).ordersCompleted = s.ordersCompleted := rfl
@[simp] theorem State.dropEvent_droppedPosts (s : State) (l : LinkId) : (s.dropEvent l).droppedPosts = s.droppedPosts := rfl
@[simp] theorem State.dropEvent_statusDue (s : State) (l : LinkId) : (s.dropEvent l).statusDue = s.statusDue := rfl
@[simp] theorem State.dropEvent_spacing (s : State) (l : LinkId) : (s.dropEvent l).spacing = s.spacing := rfl
@[simp] theorem State.dropEvent_coalesce (s : State) (l : LinkId) : (s.dropEvent l).coalesce = s.coalesce := rfl
@[simp] theorem State.dropEvent_holdoff (s : State) (l : LinkId) : (s.dropEvent l).holdoff = s.holdoff := rfl
@[simp] theorem State.dropEvent_lastServed (s : State) (l : LinkId) : (s.dropEvent l).lastServed = s.lastServed := rfl
@[simp] theorem State.dropEvent_engines (s : State) (l : LinkId) : (s.dropEvent l).engines = s.engines := rfl
@[simp] theorem State.dropEvent_seedsDrawn (s : State) (l : LinkId) : (s.dropEvent l).seedsDrawn = s.seedsDrawn := rfl
@[simp] theorem State.dropEvent_messages (s : State) (l : LinkId) : (s.dropEvent l).messages = s.messages := rfl
@[simp] theorem State.dropEvent_hostMem (s : State) (l : LinkId) : (s.dropEvent l).hostMem = s.hostMem := rfl

/-! ## send -/

@[simp] theorem State.send_pending (s : State) (l : LinkId) (ev : SeqEvent) : (s.send l ev).pending = s.pending := rfl
@[simp] theorem State.send_part (s : State) (l : LinkId) (ev : SeqEvent) : (s.send l ev).part = s.part := rfl
@[simp] theorem State.send_resume (s : State) (l : LinkId) (ev : SeqEvent) : (s.send l ev).resume = s.resume := rfl
@[simp] theorem State.send_attn (s : State) (l : LinkId) (ev : SeqEvent) : (s.send l ev).attn = s.attn := rfl
@[simp] theorem State.send_loadResult (s : State) (l : LinkId) (ev : SeqEvent) : (s.send l ev).loadResult = s.loadResult := rfl
@[simp] theorem State.send_anchorCause (s : State) (l : LinkId) (ev : SeqEvent) : (s.send l ev).anchorCause = s.anchorCause := rfl
@[simp] theorem State.send_anchorLo (s : State) (l : LinkId) (ev : SeqEvent) : (s.send l ev).anchorLo = s.anchorLo := rfl
@[simp] theorem State.send_anchorHi (s : State) (l : LinkId) (ev : SeqEvent) : (s.send l ev).anchorHi = s.anchorHi := rfl
@[simp] theorem State.send_notices (s : State) (l : LinkId) (ev : SeqEvent) : (s.send l ev).notices = s.notices := rfl
@[simp] theorem State.send_noticeEnable (s : State) (l : LinkId) (ev : SeqEvent) : (s.send l ev).noticeEnable = s.noticeEnable := rfl
@[simp] theorem State.send_faultAddr (s : State) (l : LinkId) (ev : SeqEvent) : (s.send l ev).faultAddr = s.faultAddr := rfl
@[simp] theorem State.send_faultKind (s : State) (l : LinkId) (ev : SeqEvent) : (s.send l ev).faultKind = s.faultKind := rfl
@[simp] theorem State.send_faultSource (s : State) (l : LinkId) (ev : SeqEvent) : (s.send l ev).faultSource = s.faultSource := rfl
@[simp] theorem State.send_multiple (s : State) (l : LinkId) (ev : SeqEvent) : (s.send l ev).multiple = s.multiple := rfl
@[simp] theorem State.send_uptime (s : State) (l : LinkId) (ev : SeqEvent) : (s.send l ev).uptime = s.uptime := rfl
@[simp] theorem State.send_anchor (s : State) (l : LinkId) (ev : SeqEvent) : (s.send l ev).anchor = s.anchor := rfl
@[simp] theorem State.send_accepted (s : State) (l : LinkId) (ev : SeqEvent) : (s.send l ev).accepted = s.accepted := rfl
@[simp] theorem State.send_loading (s : State) (l : LinkId) (ev : SeqEvent) : (s.send l ev).loading = s.loading := rfl
@[simp] theorem State.send_anchorRead (s : State) (l : LinkId) (ev : SeqEvent) : (s.send l ev).anchorRead = s.anchorRead := rfl
@[simp] theorem State.send_staleAnchorReads (s : State) (l : LinkId) (ev : SeqEvent) : (s.send l ev).staleAnchorReads = s.staleAnchorReads := rfl
@[simp] theorem State.send_stalePlanReads (s : State) (l : LinkId) (ev : SeqEvent) : (s.send l ev).stalePlanReads = s.stalePlanReads := rfl
@[simp] theorem State.send_posted (s : State) (l : LinkId) (ev : SeqEvent) : (s.send l ev).posted = s.posted := rfl
@[simp] theorem State.send_postMark (s : State) (l : LinkId) (ev : SeqEvent) : (s.send l ev).postMark = s.postMark := rfl
@[simp] theorem State.send_takeSeq (s : State) (l : LinkId) (ev : SeqEvent) : (s.send l ev).takeSeq = s.takeSeq := rfl
@[simp] theorem State.send_contexts (s : State) (l : LinkId) (ev : SeqEvent) : (s.send l ev).contexts = s.contexts := rfl
@[simp] theorem State.send_selfRequests (s : State) (l : LinkId) (ev : SeqEvent) : (s.send l ev).selfRequests = s.selfRequests := rfl
@[simp] theorem State.send_loadReports (s : State) (l : LinkId) (ev : SeqEvent) : (s.send l ev).loadReports = s.loadReports := rfl
@[simp] theorem State.send_rows (s : State) (l : LinkId) (ev : SeqEvent) : (s.send l ev).rows = s.rows := rfl
@[simp] theorem State.send_planBase (s : State) (l : LinkId) (ev : SeqEvent) : (s.send l ev).planBase = s.planBase := rfl
@[simp] theorem State.send_load (s : State) (l : LinkId) (ev : SeqEvent) : (s.send l ev).load = s.load := rfl
@[simp] theorem State.send_loadQueue (s : State) (l : LinkId) (ev : SeqEvent) : (s.send l ev).loadQueue = s.loadQueue := rfl
@[simp] theorem State.send_log (s : State) (l : LinkId) (ev : SeqEvent) : (s.send l ev).log = s.log := rfl
@[simp] theorem State.send_dirty (s : State) (l : LinkId) (ev : SeqEvent) : (s.send l ev).dirty = s.dirty := rfl
@[simp] theorem State.send_writeQueue (s : State) (l : LinkId) (ev : SeqEvent) : (s.send l ev).writeQueue = s.writeQueue := rfl
@[simp] theorem State.send_writing (s : State) (l : LinkId) (ev : SeqEvent) : (s.send l ev).writing = s.writing := rfl
@[simp] theorem State.send_lastSource (s : State) (l : LinkId) (ev : SeqEvent) : (s.send l ev).lastSource = s.lastSource := rfl
@[simp] theorem State.send_retry (s : State) (l : LinkId) (ev : SeqEvent) : (s.send l ev).retry = s.retry := rfl
@[simp] theorem State.send_lastWritten (s : State) (l : LinkId) (ev : SeqEvent) : (s.send l ev).lastWritten = s.lastWritten := rfl
@[simp] theorem State.send_statusGen (s : State) (l : LinkId) (ev : SeqEvent) : (s.send l ev).statusGen = s.statusGen := rfl
@[simp] theorem State.send_ordersTaken (s : State) (l : LinkId) (ev : SeqEvent) : (s.send l ev).ordersTaken = s.ordersTaken := rfl
@[simp] theorem State.send_ordersCompleted (s : State) (l : LinkId) (ev : SeqEvent) : (s.send l ev).ordersCompleted = s.ordersCompleted := rfl
@[simp] theorem State.send_droppedPosts (s : State) (l : LinkId) (ev : SeqEvent) : (s.send l ev).droppedPosts = s.droppedPosts := rfl
@[simp] theorem State.send_statusDue (s : State) (l : LinkId) (ev : SeqEvent) : (s.send l ev).statusDue = s.statusDue := rfl
@[simp] theorem State.send_spacing (s : State) (l : LinkId) (ev : SeqEvent) : (s.send l ev).spacing = s.spacing := rfl
@[simp] theorem State.send_coalesce (s : State) (l : LinkId) (ev : SeqEvent) : (s.send l ev).coalesce = s.coalesce := rfl
@[simp] theorem State.send_holdoff (s : State) (l : LinkId) (ev : SeqEvent) : (s.send l ev).holdoff = s.holdoff := rfl
@[simp] theorem State.send_lastServed (s : State) (l : LinkId) (ev : SeqEvent) : (s.send l ev).lastServed = s.lastServed := rfl
@[simp] theorem State.send_engines (s : State) (l : LinkId) (ev : SeqEvent) : (s.send l ev).engines = s.engines := rfl
@[simp] theorem State.send_seedsDrawn (s : State) (l : LinkId) (ev : SeqEvent) : (s.send l ev).seedsDrawn = s.seedsDrawn := rfl
@[simp] theorem State.send_messages (s : State) (l : LinkId) (ev : SeqEvent) : (s.send l ev).messages = s.messages := rfl
@[simp] theorem State.send_hostMem (s : State) (l : LinkId) (ev : SeqEvent) : (s.send l ev).hostMem = s.hostMem := rfl

/-! ## pushEntry -/

@[simp] theorem State.pushEntry_pending (s : State) (q : QEntry) : (s.pushEntry q).pending = s.pending := rfl
@[simp] theorem State.pushEntry_part (s : State) (q : QEntry) : (s.pushEntry q).part = s.part := rfl
@[simp] theorem State.pushEntry_resume (s : State) (q : QEntry) : (s.pushEntry q).resume = s.resume := rfl
@[simp] theorem State.pushEntry_attn (s : State) (q : QEntry) : (s.pushEntry q).attn = s.attn := rfl
@[simp] theorem State.pushEntry_loadResult (s : State) (q : QEntry) : (s.pushEntry q).loadResult = s.loadResult := rfl
@[simp] theorem State.pushEntry_anchorCause (s : State) (q : QEntry) : (s.pushEntry q).anchorCause = s.anchorCause := rfl
@[simp] theorem State.pushEntry_anchorLo (s : State) (q : QEntry) : (s.pushEntry q).anchorLo = s.anchorLo := rfl
@[simp] theorem State.pushEntry_anchorHi (s : State) (q : QEntry) : (s.pushEntry q).anchorHi = s.anchorHi := rfl
@[simp] theorem State.pushEntry_notices (s : State) (q : QEntry) : (s.pushEntry q).notices = s.notices := rfl
@[simp] theorem State.pushEntry_noticeEnable (s : State) (q : QEntry) : (s.pushEntry q).noticeEnable = s.noticeEnable := rfl
@[simp] theorem State.pushEntry_faultAddr (s : State) (q : QEntry) : (s.pushEntry q).faultAddr = s.faultAddr := rfl
@[simp] theorem State.pushEntry_faultKind (s : State) (q : QEntry) : (s.pushEntry q).faultKind = s.faultKind := rfl
@[simp] theorem State.pushEntry_faultSource (s : State) (q : QEntry) : (s.pushEntry q).faultSource = s.faultSource := rfl
@[simp] theorem State.pushEntry_multiple (s : State) (q : QEntry) : (s.pushEntry q).multiple = s.multiple := rfl
@[simp] theorem State.pushEntry_uptime (s : State) (q : QEntry) : (s.pushEntry q).uptime = s.uptime := rfl
@[simp] theorem State.pushEntry_anchor (s : State) (q : QEntry) : (s.pushEntry q).anchor = s.anchor := rfl
@[simp] theorem State.pushEntry_accepted (s : State) (q : QEntry) : (s.pushEntry q).accepted = s.accepted := rfl
@[simp] theorem State.pushEntry_loading (s : State) (q : QEntry) : (s.pushEntry q).loading = s.loading := rfl
@[simp] theorem State.pushEntry_anchorRead (s : State) (q : QEntry) : (s.pushEntry q).anchorRead = s.anchorRead := rfl
@[simp] theorem State.pushEntry_staleAnchorReads (s : State) (q : QEntry) : (s.pushEntry q).staleAnchorReads = s.staleAnchorReads := rfl
@[simp] theorem State.pushEntry_stalePlanReads (s : State) (q : QEntry) : (s.pushEntry q).stalePlanReads = s.stalePlanReads := rfl
@[simp] theorem State.pushEntry_posted (s : State) (q : QEntry) : (s.pushEntry q).posted = s.posted := rfl
@[simp] theorem State.pushEntry_postMark (s : State) (q : QEntry) : (s.pushEntry q).postMark = s.postMark := rfl
@[simp] theorem State.pushEntry_takeSeq (s : State) (q : QEntry) : (s.pushEntry q).takeSeq = s.takeSeq := rfl
@[simp] theorem State.pushEntry_contexts (s : State) (q : QEntry) : (s.pushEntry q).contexts = s.contexts := rfl
@[simp] theorem State.pushEntry_selfRequests (s : State) (q : QEntry) : (s.pushEntry q).selfRequests = s.selfRequests := rfl
@[simp] theorem State.pushEntry_loadReports (s : State) (q : QEntry) : (s.pushEntry q).loadReports = s.loadReports := rfl
@[simp] theorem State.pushEntry_rows (s : State) (q : QEntry) : (s.pushEntry q).rows = s.rows := rfl
@[simp] theorem State.pushEntry_planBase (s : State) (q : QEntry) : (s.pushEntry q).planBase = s.planBase := rfl
@[simp] theorem State.pushEntry_load (s : State) (q : QEntry) : (s.pushEntry q).load = s.load := rfl
@[simp] theorem State.pushEntry_loadQueue (s : State) (q : QEntry) : (s.pushEntry q).loadQueue = s.loadQueue := rfl
@[simp] theorem State.pushEntry_log (s : State) (q : QEntry) : (s.pushEntry q).log = s.log := rfl
@[simp] theorem State.pushEntry_dirty (s : State) (q : QEntry) : (s.pushEntry q).dirty = s.dirty := rfl
@[simp] theorem State.pushEntry_writing (s : State) (q : QEntry) : (s.pushEntry q).writing = s.writing := rfl
@[simp] theorem State.pushEntry_lastSource (s : State) (q : QEntry) : (s.pushEntry q).lastSource = s.lastSource := rfl
@[simp] theorem State.pushEntry_retry (s : State) (q : QEntry) : (s.pushEntry q).retry = s.retry := rfl
@[simp] theorem State.pushEntry_lastWritten (s : State) (q : QEntry) : (s.pushEntry q).lastWritten = s.lastWritten := rfl
@[simp] theorem State.pushEntry_statusGen (s : State) (q : QEntry) : (s.pushEntry q).statusGen = s.statusGen := rfl
@[simp] theorem State.pushEntry_ordersTaken (s : State) (q : QEntry) : (s.pushEntry q).ordersTaken = s.ordersTaken := rfl
@[simp] theorem State.pushEntry_ordersCompleted (s : State) (q : QEntry) : (s.pushEntry q).ordersCompleted = s.ordersCompleted := rfl
@[simp] theorem State.pushEntry_droppedPosts (s : State) (q : QEntry) : (s.pushEntry q).droppedPosts = s.droppedPosts := rfl
@[simp] theorem State.pushEntry_statusDue (s : State) (q : QEntry) : (s.pushEntry q).statusDue = s.statusDue := rfl
@[simp] theorem State.pushEntry_spacing (s : State) (q : QEntry) : (s.pushEntry q).spacing = s.spacing := rfl
@[simp] theorem State.pushEntry_coalesce (s : State) (q : QEntry) : (s.pushEntry q).coalesce = s.coalesce := rfl
@[simp] theorem State.pushEntry_holdoff (s : State) (q : QEntry) : (s.pushEntry q).holdoff = s.holdoff := rfl
@[simp] theorem State.pushEntry_links (s : State) (q : QEntry) : (s.pushEntry q).links = s.links := rfl
@[simp] theorem State.pushEntry_lastServed (s : State) (q : QEntry) : (s.pushEntry q).lastServed = s.lastServed := rfl
@[simp] theorem State.pushEntry_engines (s : State) (q : QEntry) : (s.pushEntry q).engines = s.engines := rfl
@[simp] theorem State.pushEntry_seedsDrawn (s : State) (q : QEntry) : (s.pushEntry q).seedsDrawn = s.seedsDrawn := rfl
@[simp] theorem State.pushEntry_messages (s : State) (q : QEntry) : (s.pushEntry q).messages = s.messages := rfl
@[simp] theorem State.pushEntry_hostMem (s : State) (q : QEntry) : (s.pushEntry q).hostMem = s.hostMem := rfl

/-! ## putEngine -/

@[simp] theorem State.putEngine_pending (s : State) (e : EngineId) (en : Engine) : (s.putEngine e en).pending = s.pending := rfl
@[simp] theorem State.putEngine_part (s : State) (e : EngineId) (en : Engine) : (s.putEngine e en).part = s.part := rfl
@[simp] theorem State.putEngine_resume (s : State) (e : EngineId) (en : Engine) : (s.putEngine e en).resume = s.resume := rfl
@[simp] theorem State.putEngine_attn (s : State) (e : EngineId) (en : Engine) : (s.putEngine e en).attn = s.attn := rfl
@[simp] theorem State.putEngine_loadResult (s : State) (e : EngineId) (en : Engine) : (s.putEngine e en).loadResult = s.loadResult := rfl
@[simp] theorem State.putEngine_anchorCause (s : State) (e : EngineId) (en : Engine) : (s.putEngine e en).anchorCause = s.anchorCause := rfl
@[simp] theorem State.putEngine_anchorLo (s : State) (e : EngineId) (en : Engine) : (s.putEngine e en).anchorLo = s.anchorLo := rfl
@[simp] theorem State.putEngine_anchorHi (s : State) (e : EngineId) (en : Engine) : (s.putEngine e en).anchorHi = s.anchorHi := rfl
@[simp] theorem State.putEngine_notices (s : State) (e : EngineId) (en : Engine) : (s.putEngine e en).notices = s.notices := rfl
@[simp] theorem State.putEngine_noticeEnable (s : State) (e : EngineId) (en : Engine) : (s.putEngine e en).noticeEnable = s.noticeEnable := rfl
@[simp] theorem State.putEngine_faultAddr (s : State) (e : EngineId) (en : Engine) : (s.putEngine e en).faultAddr = s.faultAddr := rfl
@[simp] theorem State.putEngine_faultKind (s : State) (e : EngineId) (en : Engine) : (s.putEngine e en).faultKind = s.faultKind := rfl
@[simp] theorem State.putEngine_faultSource (s : State) (e : EngineId) (en : Engine) : (s.putEngine e en).faultSource = s.faultSource := rfl
@[simp] theorem State.putEngine_multiple (s : State) (e : EngineId) (en : Engine) : (s.putEngine e en).multiple = s.multiple := rfl
@[simp] theorem State.putEngine_uptime (s : State) (e : EngineId) (en : Engine) : (s.putEngine e en).uptime = s.uptime := rfl
@[simp] theorem State.putEngine_anchor (s : State) (e : EngineId) (en : Engine) : (s.putEngine e en).anchor = s.anchor := rfl
@[simp] theorem State.putEngine_accepted (s : State) (e : EngineId) (en : Engine) : (s.putEngine e en).accepted = s.accepted := rfl
@[simp] theorem State.putEngine_loading (s : State) (e : EngineId) (en : Engine) : (s.putEngine e en).loading = s.loading := rfl
@[simp] theorem State.putEngine_anchorRead (s : State) (e : EngineId) (en : Engine) : (s.putEngine e en).anchorRead = s.anchorRead := rfl
@[simp] theorem State.putEngine_staleAnchorReads (s : State) (e : EngineId) (en : Engine) : (s.putEngine e en).staleAnchorReads = s.staleAnchorReads := rfl
@[simp] theorem State.putEngine_stalePlanReads (s : State) (e : EngineId) (en : Engine) : (s.putEngine e en).stalePlanReads = s.stalePlanReads := rfl
@[simp] theorem State.putEngine_posted (s : State) (e : EngineId) (en : Engine) : (s.putEngine e en).posted = s.posted := rfl
@[simp] theorem State.putEngine_postMark (s : State) (e : EngineId) (en : Engine) : (s.putEngine e en).postMark = s.postMark := rfl
@[simp] theorem State.putEngine_takeSeq (s : State) (e : EngineId) (en : Engine) : (s.putEngine e en).takeSeq = s.takeSeq := rfl
@[simp] theorem State.putEngine_contexts (s : State) (e : EngineId) (en : Engine) : (s.putEngine e en).contexts = s.contexts := rfl
@[simp] theorem State.putEngine_selfRequests (s : State) (e : EngineId) (en : Engine) : (s.putEngine e en).selfRequests = s.selfRequests := rfl
@[simp] theorem State.putEngine_loadReports (s : State) (e : EngineId) (en : Engine) : (s.putEngine e en).loadReports = s.loadReports := rfl
@[simp] theorem State.putEngine_rows (s : State) (e : EngineId) (en : Engine) : (s.putEngine e en).rows = s.rows := rfl
@[simp] theorem State.putEngine_planBase (s : State) (e : EngineId) (en : Engine) : (s.putEngine e en).planBase = s.planBase := rfl
@[simp] theorem State.putEngine_load (s : State) (e : EngineId) (en : Engine) : (s.putEngine e en).load = s.load := rfl
@[simp] theorem State.putEngine_loadQueue (s : State) (e : EngineId) (en : Engine) : (s.putEngine e en).loadQueue = s.loadQueue := rfl
@[simp] theorem State.putEngine_log (s : State) (e : EngineId) (en : Engine) : (s.putEngine e en).log = s.log := rfl
@[simp] theorem State.putEngine_dirty (s : State) (e : EngineId) (en : Engine) : (s.putEngine e en).dirty = s.dirty := rfl
@[simp] theorem State.putEngine_writeQueue (s : State) (e : EngineId) (en : Engine) : (s.putEngine e en).writeQueue = s.writeQueue := rfl
@[simp] theorem State.putEngine_writing (s : State) (e : EngineId) (en : Engine) : (s.putEngine e en).writing = s.writing := rfl
@[simp] theorem State.putEngine_lastSource (s : State) (e : EngineId) (en : Engine) : (s.putEngine e en).lastSource = s.lastSource := rfl
@[simp] theorem State.putEngine_retry (s : State) (e : EngineId) (en : Engine) : (s.putEngine e en).retry = s.retry := rfl
@[simp] theorem State.putEngine_lastWritten (s : State) (e : EngineId) (en : Engine) : (s.putEngine e en).lastWritten = s.lastWritten := rfl
@[simp] theorem State.putEngine_statusGen (s : State) (e : EngineId) (en : Engine) : (s.putEngine e en).statusGen = s.statusGen := rfl
@[simp] theorem State.putEngine_ordersTaken (s : State) (e : EngineId) (en : Engine) : (s.putEngine e en).ordersTaken = s.ordersTaken := rfl
@[simp] theorem State.putEngine_ordersCompleted (s : State) (e : EngineId) (en : Engine) : (s.putEngine e en).ordersCompleted = s.ordersCompleted := rfl
@[simp] theorem State.putEngine_droppedPosts (s : State) (e : EngineId) (en : Engine) : (s.putEngine e en).droppedPosts = s.droppedPosts := rfl
@[simp] theorem State.putEngine_statusDue (s : State) (e : EngineId) (en : Engine) : (s.putEngine e en).statusDue = s.statusDue := rfl
@[simp] theorem State.putEngine_spacing (s : State) (e : EngineId) (en : Engine) : (s.putEngine e en).spacing = s.spacing := rfl
@[simp] theorem State.putEngine_coalesce (s : State) (e : EngineId) (en : Engine) : (s.putEngine e en).coalesce = s.coalesce := rfl
@[simp] theorem State.putEngine_holdoff (s : State) (e : EngineId) (en : Engine) : (s.putEngine e en).holdoff = s.holdoff := rfl
@[simp] theorem State.putEngine_links (s : State) (e : EngineId) (en : Engine) : (s.putEngine e en).links = s.links := rfl
@[simp] theorem State.putEngine_lastServed (s : State) (e : EngineId) (en : Engine) : (s.putEngine e en).lastServed = s.lastServed := rfl
@[simp] theorem State.putEngine_seedsDrawn (s : State) (e : EngineId) (en : Engine) : (s.putEngine e en).seedsDrawn = s.seedsDrawn := rfl
@[simp] theorem State.putEngine_messages (s : State) (e : EngineId) (en : Engine) : (s.putEngine e en).messages = s.messages := rfl
@[simp] theorem State.putEngine_hostMem (s : State) (e : EngineId) (en : Engine) : (s.putEngine e en).hostMem = s.hostMem := rfl

/-! ## land -/

@[simp] theorem State.land_pending (s : State) (w : WStep) : (s.land w).pending = s.pending := rfl
@[simp] theorem State.land_part (s : State) (w : WStep) : (s.land w).part = s.part := rfl
@[simp] theorem State.land_resume (s : State) (w : WStep) : (s.land w).resume = s.resume := rfl
@[simp] theorem State.land_attn (s : State) (w : WStep) : (s.land w).attn = s.attn := rfl
@[simp] theorem State.land_loadResult (s : State) (w : WStep) : (s.land w).loadResult = s.loadResult := rfl
@[simp] theorem State.land_anchorCause (s : State) (w : WStep) : (s.land w).anchorCause = s.anchorCause := rfl
@[simp] theorem State.land_anchorLo (s : State) (w : WStep) : (s.land w).anchorLo = s.anchorLo := rfl
@[simp] theorem State.land_anchorHi (s : State) (w : WStep) : (s.land w).anchorHi = s.anchorHi := rfl
@[simp] theorem State.land_notices (s : State) (w : WStep) : (s.land w).notices = s.notices := rfl
@[simp] theorem State.land_noticeEnable (s : State) (w : WStep) : (s.land w).noticeEnable = s.noticeEnable := rfl
@[simp] theorem State.land_faultAddr (s : State) (w : WStep) : (s.land w).faultAddr = s.faultAddr := rfl
@[simp] theorem State.land_faultKind (s : State) (w : WStep) : (s.land w).faultKind = s.faultKind := rfl
@[simp] theorem State.land_faultSource (s : State) (w : WStep) : (s.land w).faultSource = s.faultSource := rfl
@[simp] theorem State.land_multiple (s : State) (w : WStep) : (s.land w).multiple = s.multiple := rfl
@[simp] theorem State.land_uptime (s : State) (w : WStep) : (s.land w).uptime = s.uptime := rfl
@[simp] theorem State.land_anchor (s : State) (w : WStep) : (s.land w).anchor = s.anchor := rfl
@[simp] theorem State.land_accepted (s : State) (w : WStep) : (s.land w).accepted = s.accepted := rfl
@[simp] theorem State.land_loading (s : State) (w : WStep) : (s.land w).loading = s.loading := rfl
@[simp] theorem State.land_anchorRead (s : State) (w : WStep) : (s.land w).anchorRead = s.anchorRead := rfl
@[simp] theorem State.land_staleAnchorReads (s : State) (w : WStep) : (s.land w).staleAnchorReads = s.staleAnchorReads := rfl
@[simp] theorem State.land_stalePlanReads (s : State) (w : WStep) : (s.land w).stalePlanReads = s.stalePlanReads := rfl
@[simp] theorem State.land_posted (s : State) (w : WStep) : (s.land w).posted = s.posted := rfl
@[simp] theorem State.land_postMark (s : State) (w : WStep) : (s.land w).postMark = s.postMark := rfl
@[simp] theorem State.land_takeSeq (s : State) (w : WStep) : (s.land w).takeSeq = s.takeSeq := rfl
@[simp] theorem State.land_contexts (s : State) (w : WStep) : (s.land w).contexts = s.contexts := rfl
@[simp] theorem State.land_selfRequests (s : State) (w : WStep) : (s.land w).selfRequests = s.selfRequests := rfl
@[simp] theorem State.land_loadReports (s : State) (w : WStep) : (s.land w).loadReports = s.loadReports := rfl
@[simp] theorem State.land_rows (s : State) (w : WStep) : (s.land w).rows = s.rows := rfl
@[simp] theorem State.land_planBase (s : State) (w : WStep) : (s.land w).planBase = s.planBase := rfl
@[simp] theorem State.land_load (s : State) (w : WStep) : (s.land w).load = s.load := rfl
@[simp] theorem State.land_loadQueue (s : State) (w : WStep) : (s.land w).loadQueue = s.loadQueue := rfl
@[simp] theorem State.land_log (s : State) (w : WStep) : (s.land w).log = s.log := rfl
@[simp] theorem State.land_dirty (s : State) (w : WStep) : (s.land w).dirty = s.dirty := rfl
@[simp] theorem State.land_writeQueue (s : State) (w : WStep) : (s.land w).writeQueue = s.writeQueue := rfl
@[simp] theorem State.land_writing (s : State) (w : WStep) : (s.land w).writing = s.writing := rfl
@[simp] theorem State.land_lastSource (s : State) (w : WStep) : (s.land w).lastSource = s.lastSource := rfl
@[simp] theorem State.land_retry (s : State) (w : WStep) : (s.land w).retry = s.retry := rfl
@[simp] theorem State.land_lastWritten (s : State) (w : WStep) : (s.land w).lastWritten = s.lastWritten := rfl
@[simp] theorem State.land_statusGen (s : State) (w : WStep) : (s.land w).statusGen = s.statusGen := rfl
@[simp] theorem State.land_ordersTaken (s : State) (w : WStep) : (s.land w).ordersTaken = s.ordersTaken := rfl
@[simp] theorem State.land_ordersCompleted (s : State) (w : WStep) : (s.land w).ordersCompleted = s.ordersCompleted := rfl
@[simp] theorem State.land_droppedPosts (s : State) (w : WStep) : (s.land w).droppedPosts = s.droppedPosts := rfl
@[simp] theorem State.land_statusDue (s : State) (w : WStep) : (s.land w).statusDue = s.statusDue := rfl
@[simp] theorem State.land_spacing (s : State) (w : WStep) : (s.land w).spacing = s.spacing := rfl
@[simp] theorem State.land_coalesce (s : State) (w : WStep) : (s.land w).coalesce = s.coalesce := rfl
@[simp] theorem State.land_holdoff (s : State) (w : WStep) : (s.land w).holdoff = s.holdoff := rfl
@[simp] theorem State.land_links (s : State) (w : WStep) : (s.land w).links = s.links := rfl
@[simp] theorem State.land_lastServed (s : State) (w : WStep) : (s.land w).lastServed = s.lastServed := rfl
@[simp] theorem State.land_engines (s : State) (w : WStep) : (s.land w).engines = s.engines := rfl
@[simp] theorem State.land_seedsDrawn (s : State) (w : WStep) : (s.land w).seedsDrawn = s.seedsDrawn := rfl
@[simp] theorem State.land_messages (s : State) (w : WStep) : (s.land w).messages = s.messages := rfl

/-! ## setNotices -/

@[simp] theorem State.setNotices_pending (s : State) (f g : BitVec 5) : (s.setNotices f g).pending = s.pending := rfl
@[simp] theorem State.setNotices_part (s : State) (f g : BitVec 5) : (s.setNotices f g).part = s.part := rfl
@[simp] theorem State.setNotices_resume (s : State) (f g : BitVec 5) : (s.setNotices f g).resume = s.resume := rfl
@[simp] theorem State.setNotices_attn (s : State) (f g : BitVec 5) : (s.setNotices f g).attn = s.attn := rfl
@[simp] theorem State.setNotices_loadResult (s : State) (f g : BitVec 5) : (s.setNotices f g).loadResult = s.loadResult := rfl
@[simp] theorem State.setNotices_anchorCause (s : State) (f g : BitVec 5) : (s.setNotices f g).anchorCause = s.anchorCause := rfl
@[simp] theorem State.setNotices_anchorLo (s : State) (f g : BitVec 5) : (s.setNotices f g).anchorLo = s.anchorLo := rfl
@[simp] theorem State.setNotices_anchorHi (s : State) (f g : BitVec 5) : (s.setNotices f g).anchorHi = s.anchorHi := rfl
@[simp] theorem State.setNotices_faultAddr (s : State) (f g : BitVec 5) : (s.setNotices f g).faultAddr = s.faultAddr := rfl
@[simp] theorem State.setNotices_faultKind (s : State) (f g : BitVec 5) : (s.setNotices f g).faultKind = s.faultKind := rfl
@[simp] theorem State.setNotices_faultSource (s : State) (f g : BitVec 5) : (s.setNotices f g).faultSource = s.faultSource := rfl
@[simp] theorem State.setNotices_multiple (s : State) (f g : BitVec 5) : (s.setNotices f g).multiple = s.multiple := rfl
@[simp] theorem State.setNotices_uptime (s : State) (f g : BitVec 5) : (s.setNotices f g).uptime = s.uptime := rfl
@[simp] theorem State.setNotices_anchor (s : State) (f g : BitVec 5) : (s.setNotices f g).anchor = s.anchor := rfl
@[simp] theorem State.setNotices_accepted (s : State) (f g : BitVec 5) : (s.setNotices f g).accepted = s.accepted := rfl
@[simp] theorem State.setNotices_loading (s : State) (f g : BitVec 5) : (s.setNotices f g).loading = s.loading := rfl
@[simp] theorem State.setNotices_anchorRead (s : State) (f g : BitVec 5) : (s.setNotices f g).anchorRead = s.anchorRead := rfl
@[simp] theorem State.setNotices_staleAnchorReads (s : State) (f g : BitVec 5) : (s.setNotices f g).staleAnchorReads = s.staleAnchorReads := rfl
@[simp] theorem State.setNotices_stalePlanReads (s : State) (f g : BitVec 5) : (s.setNotices f g).stalePlanReads = s.stalePlanReads := rfl
@[simp] theorem State.setNotices_posted (s : State) (f g : BitVec 5) : (s.setNotices f g).posted = s.posted := rfl
@[simp] theorem State.setNotices_postMark (s : State) (f g : BitVec 5) : (s.setNotices f g).postMark = s.postMark := rfl
@[simp] theorem State.setNotices_takeSeq (s : State) (f g : BitVec 5) : (s.setNotices f g).takeSeq = s.takeSeq := rfl
@[simp] theorem State.setNotices_contexts (s : State) (f g : BitVec 5) : (s.setNotices f g).contexts = s.contexts := rfl
@[simp] theorem State.setNotices_selfRequests (s : State) (f g : BitVec 5) : (s.setNotices f g).selfRequests = s.selfRequests := rfl
@[simp] theorem State.setNotices_loadReports (s : State) (f g : BitVec 5) : (s.setNotices f g).loadReports = s.loadReports := rfl
@[simp] theorem State.setNotices_rows (s : State) (f g : BitVec 5) : (s.setNotices f g).rows = s.rows := rfl
@[simp] theorem State.setNotices_planBase (s : State) (f g : BitVec 5) : (s.setNotices f g).planBase = s.planBase := rfl
@[simp] theorem State.setNotices_load (s : State) (f g : BitVec 5) : (s.setNotices f g).load = s.load := rfl
@[simp] theorem State.setNotices_loadQueue (s : State) (f g : BitVec 5) : (s.setNotices f g).loadQueue = s.loadQueue := rfl
@[simp] theorem State.setNotices_log (s : State) (f g : BitVec 5) : (s.setNotices f g).log = s.log := rfl
@[simp] theorem State.setNotices_dirty (s : State) (f g : BitVec 5) : (s.setNotices f g).dirty = s.dirty := rfl
@[simp] theorem State.setNotices_writeQueue (s : State) (f g : BitVec 5) : (s.setNotices f g).writeQueue = s.writeQueue := rfl
@[simp] theorem State.setNotices_writing (s : State) (f g : BitVec 5) : (s.setNotices f g).writing = s.writing := rfl
@[simp] theorem State.setNotices_lastSource (s : State) (f g : BitVec 5) : (s.setNotices f g).lastSource = s.lastSource := rfl
@[simp] theorem State.setNotices_retry (s : State) (f g : BitVec 5) : (s.setNotices f g).retry = s.retry := rfl
@[simp] theorem State.setNotices_lastWritten (s : State) (f g : BitVec 5) : (s.setNotices f g).lastWritten = s.lastWritten := rfl
@[simp] theorem State.setNotices_statusGen (s : State) (f g : BitVec 5) : (s.setNotices f g).statusGen = s.statusGen := rfl
@[simp] theorem State.setNotices_ordersTaken (s : State) (f g : BitVec 5) : (s.setNotices f g).ordersTaken = s.ordersTaken := rfl
@[simp] theorem State.setNotices_ordersCompleted (s : State) (f g : BitVec 5) : (s.setNotices f g).ordersCompleted = s.ordersCompleted := rfl
@[simp] theorem State.setNotices_droppedPosts (s : State) (f g : BitVec 5) : (s.setNotices f g).droppedPosts = s.droppedPosts := rfl
@[simp] theorem State.setNotices_statusDue (s : State) (f g : BitVec 5) : (s.setNotices f g).statusDue = s.statusDue := rfl
@[simp] theorem State.setNotices_spacing (s : State) (f g : BitVec 5) : (s.setNotices f g).spacing = s.spacing := rfl
@[simp] theorem State.setNotices_coalesce (s : State) (f g : BitVec 5) : (s.setNotices f g).coalesce = s.coalesce := rfl
@[simp] theorem State.setNotices_holdoff (s : State) (f g : BitVec 5) : (s.setNotices f g).holdoff = s.holdoff := rfl
@[simp] theorem State.setNotices_links (s : State) (f g : BitVec 5) : (s.setNotices f g).links = s.links := rfl
@[simp] theorem State.setNotices_lastServed (s : State) (f g : BitVec 5) : (s.setNotices f g).lastServed = s.lastServed := rfl
@[simp] theorem State.setNotices_engines (s : State) (f g : BitVec 5) : (s.setNotices f g).engines = s.engines := rfl
@[simp] theorem State.setNotices_seedsDrawn (s : State) (f g : BitVec 5) : (s.setNotices f g).seedsDrawn = s.seedsDrawn := rfl
@[simp] theorem State.setNotices_hostMem (s : State) (f g : BitVec 5) : (s.setNotices f g).hostMem = s.hostMem := rfl

/-! ## notify -/

@[simp] theorem State.notify_pending (s : State) (f : BitVec 5) : (s.notify f).pending = s.pending := rfl
@[simp] theorem State.notify_part (s : State) (f : BitVec 5) : (s.notify f).part = s.part := rfl
@[simp] theorem State.notify_resume (s : State) (f : BitVec 5) : (s.notify f).resume = s.resume := rfl
@[simp] theorem State.notify_attn (s : State) (f : BitVec 5) : (s.notify f).attn = s.attn := rfl
@[simp] theorem State.notify_loadResult (s : State) (f : BitVec 5) : (s.notify f).loadResult = s.loadResult := rfl
@[simp] theorem State.notify_anchorCause (s : State) (f : BitVec 5) : (s.notify f).anchorCause = s.anchorCause := rfl
@[simp] theorem State.notify_anchorLo (s : State) (f : BitVec 5) : (s.notify f).anchorLo = s.anchorLo := rfl
@[simp] theorem State.notify_anchorHi (s : State) (f : BitVec 5) : (s.notify f).anchorHi = s.anchorHi := rfl
@[simp] theorem State.notify_faultAddr (s : State) (f : BitVec 5) : (s.notify f).faultAddr = s.faultAddr := rfl
@[simp] theorem State.notify_faultKind (s : State) (f : BitVec 5) : (s.notify f).faultKind = s.faultKind := rfl
@[simp] theorem State.notify_faultSource (s : State) (f : BitVec 5) : (s.notify f).faultSource = s.faultSource := rfl
@[simp] theorem State.notify_multiple (s : State) (f : BitVec 5) : (s.notify f).multiple = s.multiple := rfl
@[simp] theorem State.notify_uptime (s : State) (f : BitVec 5) : (s.notify f).uptime = s.uptime := rfl
@[simp] theorem State.notify_anchor (s : State) (f : BitVec 5) : (s.notify f).anchor = s.anchor := rfl
@[simp] theorem State.notify_accepted (s : State) (f : BitVec 5) : (s.notify f).accepted = s.accepted := rfl
@[simp] theorem State.notify_loading (s : State) (f : BitVec 5) : (s.notify f).loading = s.loading := rfl
@[simp] theorem State.notify_anchorRead (s : State) (f : BitVec 5) : (s.notify f).anchorRead = s.anchorRead := rfl
@[simp] theorem State.notify_staleAnchorReads (s : State) (f : BitVec 5) : (s.notify f).staleAnchorReads = s.staleAnchorReads := rfl
@[simp] theorem State.notify_stalePlanReads (s : State) (f : BitVec 5) : (s.notify f).stalePlanReads = s.stalePlanReads := rfl
@[simp] theorem State.notify_posted (s : State) (f : BitVec 5) : (s.notify f).posted = s.posted := rfl
@[simp] theorem State.notify_postMark (s : State) (f : BitVec 5) : (s.notify f).postMark = s.postMark := rfl
@[simp] theorem State.notify_takeSeq (s : State) (f : BitVec 5) : (s.notify f).takeSeq = s.takeSeq := rfl
@[simp] theorem State.notify_contexts (s : State) (f : BitVec 5) : (s.notify f).contexts = s.contexts := rfl
@[simp] theorem State.notify_selfRequests (s : State) (f : BitVec 5) : (s.notify f).selfRequests = s.selfRequests := rfl
@[simp] theorem State.notify_loadReports (s : State) (f : BitVec 5) : (s.notify f).loadReports = s.loadReports := rfl
@[simp] theorem State.notify_rows (s : State) (f : BitVec 5) : (s.notify f).rows = s.rows := rfl
@[simp] theorem State.notify_planBase (s : State) (f : BitVec 5) : (s.notify f).planBase = s.planBase := rfl
@[simp] theorem State.notify_load (s : State) (f : BitVec 5) : (s.notify f).load = s.load := rfl
@[simp] theorem State.notify_loadQueue (s : State) (f : BitVec 5) : (s.notify f).loadQueue = s.loadQueue := rfl
@[simp] theorem State.notify_log (s : State) (f : BitVec 5) : (s.notify f).log = s.log := rfl
@[simp] theorem State.notify_dirty (s : State) (f : BitVec 5) : (s.notify f).dirty = s.dirty := rfl
@[simp] theorem State.notify_writeQueue (s : State) (f : BitVec 5) : (s.notify f).writeQueue = s.writeQueue := rfl
@[simp] theorem State.notify_writing (s : State) (f : BitVec 5) : (s.notify f).writing = s.writing := rfl
@[simp] theorem State.notify_lastSource (s : State) (f : BitVec 5) : (s.notify f).lastSource = s.lastSource := rfl
@[simp] theorem State.notify_retry (s : State) (f : BitVec 5) : (s.notify f).retry = s.retry := rfl
@[simp] theorem State.notify_lastWritten (s : State) (f : BitVec 5) : (s.notify f).lastWritten = s.lastWritten := rfl
@[simp] theorem State.notify_statusGen (s : State) (f : BitVec 5) : (s.notify f).statusGen = s.statusGen := rfl
@[simp] theorem State.notify_ordersTaken (s : State) (f : BitVec 5) : (s.notify f).ordersTaken = s.ordersTaken := rfl
@[simp] theorem State.notify_ordersCompleted (s : State) (f : BitVec 5) : (s.notify f).ordersCompleted = s.ordersCompleted := rfl
@[simp] theorem State.notify_droppedPosts (s : State) (f : BitVec 5) : (s.notify f).droppedPosts = s.droppedPosts := rfl
@[simp] theorem State.notify_statusDue (s : State) (f : BitVec 5) : (s.notify f).statusDue = s.statusDue := rfl
@[simp] theorem State.notify_spacing (s : State) (f : BitVec 5) : (s.notify f).spacing = s.spacing := rfl
@[simp] theorem State.notify_coalesce (s : State) (f : BitVec 5) : (s.notify f).coalesce = s.coalesce := rfl
@[simp] theorem State.notify_holdoff (s : State) (f : BitVec 5) : (s.notify f).holdoff = s.holdoff := rfl
@[simp] theorem State.notify_links (s : State) (f : BitVec 5) : (s.notify f).links = s.links := rfl
@[simp] theorem State.notify_lastServed (s : State) (f : BitVec 5) : (s.notify f).lastServed = s.lastServed := rfl
@[simp] theorem State.notify_engines (s : State) (f : BitVec 5) : (s.notify f).engines = s.engines := rfl
@[simp] theorem State.notify_seedsDrawn (s : State) (f : BitVec 5) : (s.notify f).seedsDrawn = s.seedsDrawn := rfl
@[simp] theorem State.notify_hostMem (s : State) (f : BitVec 5) : (s.notify f).hostMem = s.hostMem := rfl

/-! ## What an update changes -/

@[simp] theorem State.putLink_links (s : State) (l : LinkId) (lk : Link) :
    (s.putLink l lk).links = s.links.set l lk := rfl
@[simp] theorem State.pushEntry_writeQueue (s : State) (q : QEntry) :
    (s.pushEntry q).writeQueue = s.writeQueue ++ [q] := rfl
@[simp] theorem State.land_hostMem (s : State) (w : WStep) :
    (s.land w).hostMem = Memory.write s.hostMem w.addr w.bytes := rfl
@[simp] theorem State.setNotices_notices (s : State) (f g : BitVec 5) : (s.setNotices f g).notices = f := rfl
@[simp] theorem State.setNotices_noticeEnable (s : State) (f g : BitVec 5) :
    (s.setNotices f g).noticeEnable = g := rfl
@[simp] theorem State.notify_notices (s : State) (f : BitVec 5) : (s.notify f).notices = s.notices ||| f := rfl
@[simp] theorem State.notify_noticeEnable (s : State) (f : BitVec 5) :
    (s.notify f).noticeEnable = s.noticeEnable := rfl

/-- A link replaced reads as it was replaced. -/
@[simp] theorem State.link_putLink (s : State) (l : LinkId) (lk : Link) : (s.putLink l lk).link l = lk := by
  simp [State.link, State.putLink]

/-- Every other link reads as before. -/
theorem State.link_putLink_other (s : State) {l k : LinkId} (lk : Link) (h : k ≠ l) :
    (s.putLink l lk).link k = s.link k := by
  have h' : l.val ≠ k.val := fun e => h (Fin.ext e.symm)
  simp [State.link, State.putLink, h']

/-- An update that leaves the links leaves what a link keeps. -/
theorem State.link_congr {s t : State} (h : t.links = s.links) (l : LinkId) : t.link l = s.link l := by
  simp [State.link, h]

@[simp] theorem State.link_pushEntry (s : State) (q : QEntry) (l : LinkId) : (s.pushEntry q).link l = s.link l := rfl
@[simp] theorem State.link_putEngine (s : State) (e : EngineId) (en : Engine) (l : LinkId) :
    (s.putEngine e en).link l = s.link l := rfl
@[simp] theorem State.link_land (s : State) (w : WStep) (l : LinkId) : (s.land w).link l = s.link l := rfl
@[simp] theorem State.link_notify (s : State) (f : BitVec 5) (l : LinkId) : (s.notify f).link l = s.link l := rfl

/-- An engine replaced reads as it was replaced. -/
@[simp] theorem State.engine_putEngine (s : State) (e : EngineId) (en : Engine) : (s.putEngine e en).engine e = en := by
  simp [State.engine, State.putEngine]

/-- Every other engine reads as before. -/
theorem State.engine_putEngine_other (s : State) {e k : EngineId} (en : Engine) (h : k ≠ e) :
    (s.putEngine e en).engine k = s.engine k := by
  have h' : e.val ≠ k.val := fun x => h (Fin.ext x.symm)
  simp [State.engine, State.putEngine, h']

/-- What a sequencer reads does not depend on the links, the queues or the engines. -/
theorem State.env_congr {s t : State} (h1 : t.uptime = s.uptime) (h2 : t.anchor = s.anchor) (h3 : t.rows = s.rows)
    (h4 : t.contexts = s.contexts) (l : LinkId) : t.env l = s.env l := by
  simp [State.env, State.readingTakes, State.ownTag, State.splitOf, State.row, State.legPlan, State.classOf, h1, h2, h3,
    h4]

@[simp] theorem State.env_reading (s : State) (l : LinkId) : (s.env l).reading = s.readingTakes := rfl
@[simp] theorem State.env_uptime (s : State) (l : LinkId) : (s.env l).uptime = s.uptime := rfl

/-- The takes in READING are those of the contexts in that phase. -/
theorem State.mem_readingTakes {s : State} {q : Word} :
    q ∈ s.readingTakes ↔ ∃ c ∈ s.contexts, c.seq = q ∧ ∃ f, c.phase = .reading f := by
  unfold State.readingTakes
  rw [List.mem_filterMap]
  constructor
  · rintro ⟨c, hc, h⟩
    split at h
    · exact ⟨c, hc, Option.some.inj h, _, ‹_›⟩
    · exact absurd h nofun
    · exact absurd h nofun
  · rintro ⟨c, hc, rfl, f, h⟩
    exact ⟨c, hc, by rw [h]⟩

@[simp] theorem State.env_putLink (s : State) (k : LinkId) (lk : Link) (l : LinkId) :
    (s.putLink k lk).env l = s.env l := rfl
@[simp] theorem State.env_dropEvent (s : State) (k l : LinkId) : (s.dropEvent k).env l = s.env l := rfl
@[simp] theorem State.env_putEngine (s : State) (e : EngineId) (en : Engine) (l : LinkId) :
    (s.putEngine e en).env l = s.env l := rfl
@[simp] theorem State.env_pushEntry (s : State) (q : QEntry) (l : LinkId) : (s.pushEntry q).env l = s.env l := rfl

/-- The oldest event leaves the inbox, and the link keeps the rest. -/
@[simp] theorem State.link_dropEvent (s : State) (l : LinkId) :
    (s.dropEvent l).link l = { s.link l with inbox := (s.link l).inbox.drop 1 } := by
  simp [State.dropEvent]

theorem State.link_dropEvent_other (s : State) {l k : LinkId} (h : k ≠ l) : (s.dropEvent l).link k = s.link k :=
  State.link_putLink_other s _ h

/-- An event handed to a sequencer is the youngest of its inbox. -/
@[simp] theorem State.link_send (s : State) (l : LinkId) (ev : SeqEvent) :
    (s.send l ev).link l = { s.link l with inbox := (s.link l).inbox ++ [ev] } := by
  simp [State.send]

theorem State.link_send_other (s : State) {l k : LinkId} (ev : SeqEvent) (h : k ≠ l) :
    (s.send l ev).link k = s.link k :=
  State.link_putLink_other s _ h

end Sys2Proof.Machine
end

