-- ==== Sys2Proof/Laws/Links.lean ====
section
/-! SUPPORT. What the shared operations over links can do: the status block's mark, the dirty set, a step of one
link. Each is said once, for later proofs to cite. -/

namespace Sys2Proof.Machine

/-! ## The status block (R193) -/

theorem StatusOnly.refl (s : State) : StatusOnly s s := ⟨rfl, .inl rfl⟩

/-- A change of a field of the status block at most marks it due and queues one entry. -/
theorem State.statusChange_only (s : State) : StatusOnly s s.statusChange := by
  unfold State.statusChange State.queueStatus
  repeat' split
  all_goals first
    | exact .refl s
    | exact ⟨rfl, .inl rfl⟩
    | exact ⟨rfl, .inr rfl⟩

theorem State.queueStatus_only (s : State) : StatusOnly s s.queueStatus := by
  unfold State.queueStatus
  split
  · exact ⟨rfl, .inr rfl⟩
  · exact .refl s

/-- A link reads as before a change of the status block's mark. -/
theorem StatusOnly.links {s t : State} (h : StatusOnly s t) : t.links = s.links := by
  rw [← congrArg State.links h.rest]

theorem StatusOnly.dirty {s t : State} (h : StatusOnly s t) : t.dirty = s.dirty := by
  rw [← congrArg State.dirty h.rest]

@[simp] theorem State.link_statusChange (s : State) (l : LinkId) : s.statusChange.link l = s.link l :=
  State.link_congr s.statusChange_only.links l

@[simp] theorem State.link_markDirty (s : State) (k l : LinkId) : (s.markDirty k).link l = s.link l := by
  unfold State.markDirty
  split <;> rfl

/-! ## A step of one link -/

theorem OnlyLink.refl (l : LinkId) (s : State) : OnlyLink l s s :=
  ⟨fun _ _ => rfl, rfl, List.prefix_refl _, fun _ h => .inl h, List.prefix_refl _, fun _ h => .inl h,
    fun _ h => absurd rfl h, id, fun _ _ h => absurd rfl h⟩

theorem OnlyLink.partEq {l : LinkId} {s t : State} (h : OnlyLink l s t) : t.part = s.part := by
  rw [← congrArg State.part h.rest]

theorem OnlyLink.acceptedEq {l : LinkId} {s t : State} (h : OnlyLink l s t) : t.accepted = s.accepted := by
  rw [← congrArg State.accepted h.rest]

theorem OnlyLink.trans {l : LinkId} {s t u : State} (h : OnlyLink l s t) (k : OnlyLink l t u) : OnlyLink l s u where
  others i hi := (k.others i hi).trans (h.others i hi)
  rest := by
    have h1 := h.rest
    have h2 := k.rest
    rw [← h2] at h1
    exact h1
  dirtyKept := h.dirtyKept.trans k.dirtyKept
  dirtyNew i hi := (k.dirtyNew i hi).elim (h.dirtyNew i) .inr
  queueKept := h.queueKept.trans k.queueKept
  queueNew q hq := (k.queueNew q hq).elim (h.queueNew q) .inr
  marked hp hne := by
    by_cases e : (u.link l).record = (t.link l).record
    · exact k.dirtyKept.subset (h.marked hp fun e2 => hne (e.trans e2))
    · exact k.marked (h.partEq ▸ hp) e
  dueKept hd := k.dueKept (h.dueKept hd)
  due ha hp hne := by
    by_cases e : (u.link l).record.state = (t.link l).record.state
    · exact k.dueKept (h.due ha hp fun e2 => hne (e.trans e2))
    · exact k.due (h.acceptedEq ▸ ha) (h.partEq ▸ hp) e

/-- What a link keeps beside its record changes. -/
theorem State.putLink_only (s : State) (l : LinkId) (lk : Link) (h : lk.record = (s.link l).record) :
    OnlyLink l s (s.putLink l lk) where
  others _ h := State.link_putLink_other s lk h
  rest := rfl
  dirtyKept := List.prefix_refl _
  dirtyNew _ h := .inl h
  queueKept := List.prefix_refl _
  queueNew _ h := .inl h
  marked _ hne := absurd (by simpa using h) hne
  dueKept h := h
  due _ _ hne := absurd (by simpa using congrArg LinkRecord.state h) hne

/-- A change of the status block at most sets its mark. -/
theorem State.statusChange_due (s : State) (h : s.statusDue = true) : s.statusChange.statusDue = true := by
  unfold State.statusChange State.queueStatus
  repeat' split
  all_goals first | rfl | exact h

/-- Outside IDLE, once an anchor is accepted, a change leaves the block due. -/
theorem State.statusChange_sets (s : State) (ha : s.accepted = true) (hp : s.part ≠ .idle) :
    s.statusChange.statusDue = true := by
  unfold State.statusChange State.queueStatus
  simp only [ha, hp, ne_eq, not_false_eq_true, and_self, if_true, true_and]
  repeat' split
  all_goals rfl

theorem State.mem_markDirty (s : State) (l : LinkId) (hp : s.part ≠ .idle) : l ∈ (s.markDirty l).dirty := by
  unfold State.markDirty
  split
  · next h => exact h.resolve_left hp
  · simp

theorem StatusOnly.part {s t : State} (h : StatusOnly s t) : t.part = s.part := by
  rw [← congrArg State.part h.rest]

theorem State.markDirty_part (s : State) (l : LinkId) : (s.markDirty l).part = s.part := by
  unfold State.markDirty
  split <;> rfl

theorem State.markDirty_accepted (s : State) (l : LinkId) : (s.markDirty l).accepted = s.accepted := by
  unfold State.markDirty
  split <;> rfl

theorem State.markDirty_due (s : State) (l : LinkId) : (s.markDirty l).statusDue = s.statusDue := by
  unfold State.markDirty
  split <;> rfl

theorem State.markDirty_prefix (s : State) (l : LinkId) : s.dirty <+: (s.markDirty l).dirty := by
  unfold State.markDirty
  split
  · exact List.prefix_refl _
  · exact List.prefix_append _ _

theorem State.markDirty_new (s : State) (l k : LinkId) (h : k ∈ (s.markDirty l).dirty) : k ∈ s.dirty ∨ k = l := by
  unfold State.markDirty at h
  split at h
  · exact .inl h
  · simpa using h

theorem State.markDirty_rest (s : State) (l : LinkId) : { s.markDirty l with dirty := s.dirty } = s := by
  unfold State.markDirty
  split <;> rfl

theorem State.markDirty_queue (s : State) (l : LinkId) : (s.markDirty l).writeQueue = s.writeQueue := by
  unfold State.markDirty
  split <;> rfl

theorem StatusOnly.queueKept {s t : State} (h : StatusOnly s t) : s.writeQueue <+: t.writeQueue := by
  rcases h.queue with e | e <;> rw [e]
  exact List.prefix_append _ _

theorem StatusOnly.queueNew {s t : State} (h : StatusOnly s t) (q : QEntry) (hq : q ∈ t.writeQueue) :
    q ∈ s.writeQueue ∨ q.kind.isStatus = true := by
  rcases h.queue with e | e
  · exact .inl (e ▸ hq)
  · rw [e] at hq
    rcases List.mem_append.1 hq with h | h
    · exact .inl h
    · right
      rw [List.mem_singleton.1 h]
      rfl

theorem StatusOnly.accepted {s t : State} (h : StatusOnly s t) : t.accepted = s.accepted := by
  rw [← congrArg State.accepted h.rest]

/-- The three parts of a step of a link: what it keeps, its place in the dirty set, the status block's mark. -/
theorem State.onLink_parts (s : State) (l : LinkId) (f : Env → Link → Link) :
    ∃ d u, s.onLink l f = u ∧ StatusOnly d u ∧
      d = (if (f (s.env l) (s.link l)).record = (s.link l).record then s.putLink l (f (s.env l) (s.link l))
        else (s.putLink l (f (s.env l) (s.link l))).markDirty l) ∧
      (s.statusDue = true → u.statusDue = true) ∧
      (s.accepted = true → s.part ≠ .idle →
        (f (s.env l) (s.link l)).record.state ≠ (s.link l).record.state → u.statusDue = true) := by
  refine ⟨_, _, rfl, ?_, rfl, ?_, ?_⟩
  · unfold State.onLink
    dsimp only
    by_cases hs : (f (s.env l) (s.link l)).record.state = (s.link l).record.state
    · rw [if_pos hs]; exact .refl _
    · rw [if_neg hs]; exact State.statusChange_only _
  · intro h
    unfold State.onLink
    dsimp only
    split <;> split
    · exact h
    · rw [State.markDirty_due]; exact h
    · exact State.statusChange_due _ h
    · exact State.statusChange_due _ (by rw [State.markDirty_due]; exact h)
  · intro ha hp hne
    unfold State.onLink
    dsimp only
    rw [if_neg hne]
    split
    · exact State.statusChange_sets _ ha hp
    · exact State.statusChange_sets _ (by rw [State.markDirty_accepted]; exact ha) (by rw [State.markDirty_part]; exact hp)

/-- After its step a link is what the step makes of it. -/
@[simp] theorem State.link_onLink (s : State) (l : LinkId) (f : Env → Link → Link) :
    (s.onLink l f).link l = f (s.env l) (s.link l) := by
  unfold State.onLink
  dsimp only
  split <;> split <;> simp

/-- A step of a link changes nothing but what the link keeps, its place in the dirty set and the status block's
mark (R14, R193). -/
theorem State.onLink_only (s : State) (l : LinkId) (f : Env → Link → Link) : OnlyLink l s (s.onLink l f) := by
  obtain ⟨d, u, hu, hs, hd, hk, hm⟩ := s.onLink_parts l f
  have hlink := s.link_onLink l f
  rw [hu] at hlink ⊢
  have hdl : ∀ k, k ≠ l → d.link k = s.link k := by
    intro k hne
    rw [hd]
    split
    · exact State.link_putLink_other s _ hne
    · rw [State.link_markDirty]; exact State.link_putLink_other s _ hne
  have hul : ∀ k, u.link k = d.link k := fun k => State.link_congr hs.links k
  refine ⟨fun k hne => (hul k).trans (hdl k hne), ?_, ?_, ?_, ?_, ?_, ?_, hk, ?_⟩
  · have h1 := hs.rest
    have h2 := hs.links
    have h3 := hs.dirty
    have hrest : { d with links := s.links, dirty := s.dirty } = s := by
      rw [hd]
      split
      · rfl
      · unfold State.markDirty
        split <;> rfl
    rw [← hrest]
    have hq := congrArg (fun x : State => { x with links := s.links, dirty := s.dirty }) h1
    rw [← hq]
  · rw [hs.dirty, hd]
    split
    · exact List.prefix_refl _
    · exact State.markDirty_prefix (s.putLink l _) l
  · intro k hk2
    rw [hs.dirty, hd] at hk2
    split at hk2
    · exact .inl hk2
    · exact State.markDirty_new (s.putLink l _) l k hk2
  · have := hs.queueKept
    rw [hd] at this
    split at this
    · exact this
    · rw [State.markDirty_queue] at this; exact this
  · intro q hq
    have := hs.queueNew q hq
    rw [hd] at this
    split at this
    · exact this
    · rw [State.markDirty_queue] at this; exact this
  · intro hp hne
    rw [hlink] at hne
    rw [hs.dirty, hd, if_neg hne]
    exact State.mem_markDirty _ l hp
  · intro ha hp hne
    rw [hlink] at hne
    exact hm ha hp hne

/-- The oldest event leaves the inbox of one link. -/
theorem State.dropEvent_only (s : State) (l : LinkId) : OnlyLink l s (s.dropEvent l) := State.putLink_only s l _ rfl

/-- An event is handed to one link. -/
theorem State.send_only (s : State) (l : LinkId) (ev : SeqEvent) : OnlyLink l s (s.send l ev) :=
  State.putLink_only s l _ rfl

/-- A link takes its oldest event. -/
theorem State.takeEvent_only (s : State) (l : LinkId) (f : Env → Link → Link) :
    OnlyLink l s ((s.dropEvent l).onLink l f) :=
  (s.dropEvent_only l).trans (State.onLink_only _ l f)

/-- After it takes its oldest event a link is what the event makes of it. -/
theorem State.link_takeEvent (s : State) (l : LinkId) (f : Env → Link → Link) {ev : SeqEvent} {rest : List SeqEvent}
    (h : (s.link l).inbox = ev :: rest) :
    ((s.dropEvent l).onLink l f).link l = f (s.env l) { s.link l with inbox := rest } := by
  have he : (s.dropEvent l).env l = s.env l := State.env_congr rfl rfl rfl rfl l
  rw [State.link_onLink, he]
  simp [State.dropEvent, h]

/-! ## What a step of one link leaves -/

theorem OnlyLink.hostMem {l : LinkId} {s t : State} (h : OnlyLink l s t) : t.hostMem = s.hostMem := by
  rw [← congrArg State.hostMem h.rest]
theorem OnlyLink.contexts {l : LinkId} {s t : State} (h : OnlyLink l s t) : t.contexts = s.contexts := by
  rw [← congrArg State.contexts h.rest]
theorem OnlyLink.log {l : LinkId} {s t : State} (h : OnlyLink l s t) : t.log = s.log := by
  rw [← congrArg State.log h.rest]
theorem OnlyLink.engines {l : LinkId} {s t : State} (h : OnlyLink l s t) : t.engines = s.engines := by
  rw [← congrArg State.engines h.rest]
theorem OnlyLink.anchor {l : LinkId} {s t : State} (h : OnlyLink l s t) : t.anchor = s.anchor := by
  rw [← congrArg State.anchor h.rest]
theorem OnlyLink.rows {l : LinkId} {s t : State} (h : OnlyLink l s t) : t.rows = s.rows := by
  rw [← congrArg State.rows h.rest]
theorem OnlyLink.uptime {l : LinkId} {s t : State} (h : OnlyLink l s t) : t.uptime = s.uptime := by
  rw [← congrArg State.uptime h.rest]
theorem OnlyLink.part {l : LinkId} {s t : State} (h : OnlyLink l s t) : t.part = s.part := by
  rw [← congrArg State.part h.rest]
theorem OnlyLink.pending {l : LinkId} {s t : State} (h : OnlyLink l s t) : t.pending = s.pending := by
  rw [← congrArg State.pending h.rest]

/-- Every sequencer reads what it read. -/
theorem OnlyLink.env {l : LinkId} {s t : State} (h : OnlyLink l s t) (k : LinkId) : t.env k = s.env k :=
  State.env_congr h.uptime h.anchor h.rows h.contexts k

end Sys2Proof.Machine
end

