-- ==== Sys2Proof/Laws/Loading.lean ====
section
/-! SUPPORT. What the end of LOADING's plan stage can do (R14, R184). -/

namespace Sys2Proof.Machine

/-- A link enters a dirty set that does not hold it at its tail, and keeps its place in one that does (R14). -/
def enterDirty (xs : List LinkId) (l : LinkId) : List LinkId := if l ∈ xs then xs else xs ++ [l]

/-- Links that enter in turn: those not yet in the set stand at its tail in their order. -/
theorem foldl_enterDirty (ls : List LinkId) : ∀ xs : List LinkId, ls.Pairwise (· < ·) →
    ∃ added, ls.foldl enterDirty xs = xs ++ added ∧ added.Sublist ls ∧ (∀ l ∈ added, l ∉ xs) ∧
      ∀ l ∈ ls, l ∈ ls.foldl enterDirty xs := by
  induction ls with
  | nil => exact fun xs _ => ⟨[], by simp⟩
  | cons k ls ih =>
    intro xs hs
    obtain ⟨hk, hs⟩ := List.pairwise_cons.1 hs
    obtain ⟨added, he, hsub, hnew, hall⟩ := ih (enterDirty xs k) hs
    simp only [List.foldl_cons]
    rw [he] at hall ⊢
    unfold enterDirty at hnew hall ⊢
    by_cases hx : k ∈ xs
    · simp only [hx, if_true] at hnew hall ⊢
      refine ⟨added, rfl, hsub.cons k, hnew, fun l hl => ?_⟩
      rcases List.mem_cons.1 hl with rfl | hl
      · exact List.mem_append_left _ hx
      · exact hall l hl
    · simp only [hx, if_false] at hnew hall ⊢
      refine ⟨k :: added, by simp, hsub.cons_cons k, fun l hl => ?_, fun l hl => ?_⟩
      · rcases List.mem_cons.1 hl with rfl | hl
        · exact hx
        · exact fun h => hnew l hl (List.mem_append_left _ h)
      · rcases List.mem_cons.1 hl with rfl | hl
        · simp
        · exact hall l hl

/-- All 64 links entered in the dirty set, outside IDLE. -/
theorem State.markAll_eq (s : State) :
    s.markAll = { s with dirty := if s.part = .idle then s.dirty else (allBelow 64).foldl enterDirty s.dirty } := by
  have h : ∀ (ls : List LinkId) (s : State), ls.foldl (fun s l => s.markDirty l) s =
      { s with dirty := if s.part = .idle then s.dirty else ls.foldl enterDirty s.dirty } := by
    intro ls
    induction ls with
    | nil => intro s; simp
    | cons k ls ih =>
      intro s
      simp only [List.foldl_cons]
      rw [ih]
      unfold State.markDirty enterDirty
      by_cases hp : s.part = .idle
      · simp [hp]
      · by_cases hk : k ∈ s.dirty <;> simp [hp, hk]
  exact h _ s

/-- A status block entry with a mark is queued, or the one that waits takes the mark: one with that mark is in the
queue, the entries of other kinds stay, where none waited it is the queue's last, and where one waited none is added. -/
theorem State.queueMarked_queue (s : State) (m : StatusMark) :
    (∃ q ∈ (s.queueMarked m).writeQueue, q.kind = .status m) ∧
    (s.queueMarked m).writeQueue.filter (fun q => !q.kind.isStatus) = s.writeQueue.filter (fun q => !q.kind.isStatus) ∧
    (s.statusWaiting = false → (s.queueMarked m).writeQueue = s.writeQueue ++ [⟨.status m, []⟩]) ∧
    (s.statusWaiting = true →
      (s.queueMarked m).writeQueue.length = s.writeQueue.length ∧ (s.queueMarked m).spacing = s.spacing) ∧
    { s.queueMarked m with writeQueue := s.writeQueue, spacing := s.spacing } = s := by
  have hmap : ∀ xs : List QEntry, (xs.map fun q => if q.kind.isStatus then { q with kind := .status m } else q).filter
      (fun q => !q.kind.isStatus) = xs.filter fun q => !q.kind.isStatus := by
    intro xs
    induction xs with
    | nil => rfl
    | cons x xs ih =>
      have hs : (QKind.status m).isStatus = true := rfl
      cases hx : x.kind.isStatus <;> simp [hx, ih, hs]
  have hmem : ∀ xs : List QEntry, (xs.any fun q => q.kind.isStatus) = true →
      ∃ q ∈ xs.map (fun q => if q.kind.isStatus then { q with kind := .status m } else q), q.kind = .status m := by
    intro xs hx
    obtain ⟨q, hq, hs⟩ := List.any_eq_true.1 hx
    exact ⟨_, List.mem_map_of_mem hq, by simp [hs]⟩
  unfold State.queueMarked
  by_cases hw : s.statusWaiting = true
  · simp only [hw, if_true]
    refine ⟨?_, ?_, fun h => absurd h (by decide), fun _ => ⟨?_, trivial⟩, trivial⟩
    · unfold State.statusWaiting at hw
      cases hb : s.headBegun
      · simp only [hb, Bool.false_eq_true, if_false] at hw ⊢
        exact hmem _ hw
      · simp only [hb, if_true] at hw ⊢
        obtain ⟨q, hq, hk⟩ := hmem _ hw
        exact ⟨q, List.mem_append_right _ hq, hk⟩
    · cases s.headBegun
      · exact hmap _
      · simp only [if_true, List.filter_append, hmap]
        rw [← List.filter_append, List.take_append_drop]
    · cases s.headBegun
      · exact List.length_map _
      · simp only [if_true, List.length_append, List.length_map]
        rw [← List.length_append, List.take_append_drop]
  · simp only [hw, Bool.false_eq_true, if_false]
    refine ⟨⟨_, List.mem_append_right _ (List.mem_singleton.2 rfl), rfl⟩, ?_, fun _ => rfl, fun h => absurd h (by decide), rfl⟩
    simp [State.pushEntry, List.filter_append, QKind.isStatus]

/-- No changed row waits for its link. -/
theorem State.rowsTaken_iff (s : State) : s.rowsTaken = true ↔ ∀ l d, .rowChange d ∉ (s.link l).inbox := by
  have hl : ∀ l : LinkId, l ∈ allBelow 64 := by decide +kernel
  unfold State.rowsTaken
  simp only [List.all_eq_true, Bool.not_eq_true', List.any_eq_false]
  constructor
  · intro h l d hd
    exact h l (hl l) _ hd rfl
  · intro h l _ ev he hr
    cases ev <;> first | exact h l _ he | simp [SeqEvent.isRowChange] at hr

/-- What LOADING does when a changed row has been taken, or the START load applies. -/
theorem State.checkReconciled_goesOn (s : State) : LoadGoesOn s s.checkReconciled := by
  unfold State.checkReconciled
  by_cases h : s.loading = some .reconciling ∧ s.rowsTaken = true
  · rw [if_pos h]
    have hr := s.rowsTaken_iff.1 h.2
    obtain ⟨h1, h2, h3, h5, h4⟩ :=
      State.queueMarked_queue { s.markAll with loading := some (.completing (allBelow 64) false) } .loading
    obtain ⟨added, ha, hsub, hnew, hall⟩ := foldl_enterDirty (allBelow 64) s.dirty (by decide +kernel)
    rw [State.markAll_eq] at h1 h2 h3 h4 h5
    unfold State.planReconciled
    rw [State.markAll_eq]
    generalize State.queueMarked _ _ = t at *
    refine ⟨fun hn => ?_, fun _ _ => ?_, ?_, h2, fun _ _ hp => ⟨added, ?_, ?_, hnew, fun l => ?_⟩, fun _ _ => ⟨h1, h3, h5⟩⟩
    · rcases hn with hn | ⟨l, d, hd⟩
      · exact absurd h.1 hn
      · exact absurd hd (hr l d)
    · exact congrArg State.loading h4
    · have := congrArg (fun u : State => { u with loading := s.loading, dirty := s.dirty }) h4
      exact this
    · have := congrArg State.dirty h4
      simp only [hp, if_false] at this
      rw [← ha]; exact this
    · exact (by decide +kernel : (allBelow 64).Pairwise (· < ·)).sublist hsub
    · have := congrArg State.dirty h4
      simp only [hp, if_false] at this
      rw [this]
      exact hall l ((by decide +kernel : ∀ l : LinkId, l ∈ allBelow 64) l)
  · rw [if_neg h]
    refine ⟨fun _ => rfl, fun a b => absurd ⟨a, s.rowsTaken_iff.2 b⟩ h, rfl, rfl,
      fun a b => absurd ⟨a, s.rowsTaken_iff.2 b⟩ h, fun a b => absurd ⟨a, s.rowsTaken_iff.2 b⟩ h⟩

end Sys2Proof.Machine
end

