-- ==== Sys2Proof/Laws/Memory.lean ====
section
/-! SUPPORT. Host memory as the part has written it: every operation keeps the canonical form, a written byte reads
as written, every other byte reads as before. -/

namespace Sys2Proof.Machine

/-- The head of a canonical list is below an address (or the list is empty). -/
def Memory.headAbove (a : Nat) : List Host.Cell → Prop
  | [] => True
  | (k, _) :: _ => a < k

theorem Memory.wf_cons (a : Nat) (b : Byte) (m : List Host.Cell) :
    Memory.wf ((a, b) :: m) = true ↔ Memory.headAbove a m ∧ Memory.wf m = true := by
  cases m with
  | nil => simp [Memory.wf, Memory.headAbove]
  | cons c m => obtain ⟨k, x⟩ := c; simp [Memory.wf, Memory.headAbove]

theorem Memory.headAbove_put {k a : Nat} (b : Byte) {m : List Host.Cell} (h : Memory.headAbove k m) (ha : k < a) :
    Memory.headAbove k (Memory.put m a b) := by
  cases m with
  | nil => simpa [Memory.put, Memory.headAbove] using ha
  | cons c m =>
    obtain ⟨j, x⟩ := c
    simp only [Memory.put]
    split
    · simpa [Memory.headAbove] using ha
    · split
      · simpa [Memory.headAbove] using ha
      · simpa [Memory.headAbove] using h

/-- A write of one byte keeps the canonical form. -/
theorem Memory.wf_put (m : List Host.Cell) (a : Nat) (b : Byte) (h : Memory.wf m = true) :
    Memory.wf (Memory.put m a b) = true := by
  induction m with
  | nil => rfl
  | cons c m ih =>
    obtain ⟨k, x⟩ := c
    obtain ⟨h1, h2⟩ := (Memory.wf_cons k x m).1 h
    simp only [Memory.put]
    split
    · exact (Memory.wf_cons _ _ _).2 ⟨by simpa [Memory.headAbove], h⟩
    · split
      · next e => exact (Memory.wf_cons _ _ _).2 ⟨e ▸ h1, h2⟩
      · next h3 h4 => exact (Memory.wf_cons _ _ _).2 ⟨Memory.headAbove_put b h1 (by omega), ih h2⟩

/-- A write of bytes keeps the canonical form. -/
theorem Memory.wf_write (m : List Host.Cell) (a : Nat) (bs : List Byte) (h : Memory.wf m = true) :
    Memory.wf (Memory.write m a bs) = true := by
  induction bs generalizing m a with
  | nil => exact h
  | cons b bs ih => exact ih _ _ (Memory.wf_put m a b h)

/-- A byte written reads as written. -/
@[simp] theorem Memory.get_put_self (m : List Host.Cell) (a : Nat) (b : Byte) :
    Memory.get (Memory.put m a b) a = some b := by
  induction m with
  | nil => simp [Memory.put, Memory.get]
  | cons c m ih =>
    obtain ⟨k, x⟩ := c
    simp only [Memory.put]
    split
    · simp [Memory.get]
    · split
      · simp [Memory.get]
      · next h => simp [Memory.get, ih, Ne.symm h]

/-- Every other byte reads as before. -/
theorem Memory.get_put_other (m : List Host.Cell) {a c : Nat} (b : Byte) (h : c ≠ a) :
    Memory.get (Memory.put m a b) c = Memory.get m c := by
  induction m with
  | nil => simp [Memory.put, Memory.get, Ne.symm h]
  | cons d m ih =>
    obtain ⟨k, x⟩ := d
    simp only [Memory.put]
    split
    · simp [Memory.get, Ne.symm h]
    · split
      · next e => simp [Memory.get, ← e, Ne.symm h]
      · simp only [Memory.get, ih]

/-- A byte outside the bytes written reads as before. -/
theorem Memory.get_write_other (m : List Host.Cell) (a : Nat) (bs : List Byte) {c : Nat}
    (h : c < a ∨ a + bs.length ≤ c) : Memory.get (Memory.write m a bs) c = Memory.get m c := by
  induction bs generalizing m a with
  | nil => rfl
  | cons b bs ih =>
    simp only [List.length_cons] at h
    rw [Memory.write, ih _ _ (by omega), Memory.get_put_other _ _ (by omega)]

/-- A byte among those written reads as written. -/
theorem Memory.get_write_inside (m : List Host.Cell) (a : Nat) (bs : List Byte) (i : Nat) (h : i < bs.length) :
    Memory.get (Memory.write m a bs) (a + i) = some bs[i] := by
  induction bs generalizing m a i with
  | nil => simp at h
  | cons b bs ih =>
    cases i with
    | zero => rw [Memory.write, Nat.add_zero, Memory.get_write_other _ _ _ (by omega)]; simp
    | succ i =>
      have := ih (Memory.put m a b) (a + 1) i (by simpa using h)
      rw [Memory.write, show a + (i + 1) = a + 1 + i by omega, this]
      simp

/-- The memory of State.reset has the canonical form. -/
theorem Memory.wf_reset : Memory.wf State.reset.hostMem = true := rfl

/-- A step that lands keeps the canonical form. -/
theorem State.memOk_land {s : State} (w : WStep) (h : s.memOk) : (s.land w).memOk := Memory.wf_write _ _ _ h

end Sys2Proof.Machine
end

