-- ==== Sys2Proof/Laws/Orders.lean ====
section
/-! SUPPORT. What the shared operations of the Order Unit can do: the context of a take, its phase, the end of an
order, the release of FENCEs. -/

namespace Sys2Proof.Machine

/-! ## Contexts -/

/-- The context of a take is in flight under that take sequence. -/
theorem State.ctx?_some {s : State} {q : Word} {c : Ctx} (h : s.ctx? q = some c) : c ∈ s.contexts ∧ c.seq = q := by
  unfold State.ctx? at h
  exact ⟨List.mem_of_find?_eq_some h, by simpa using List.find?_some h⟩

/-- In a list whose keys differ, a thing is found by its key. -/
theorem find?_key {α β : Type} [DecidableEq β] (key : α → β) {xs : List α} (h : (xs.map key).Nodup) {x : α}
    (hx : x ∈ xs) : xs.find? (fun y => decide (key y = key x)) = some x := by
  induction xs with
  | nil => simp at hx
  | cons y ys ih =>
    simp only [List.map_cons, List.nodup_cons] at h
    rcases List.mem_cons.1 hx with rfl | hy
    · simp
    · have hne : key y ≠ key x := fun e => h.1 (e ▸ List.mem_map_of_mem hy)
      rw [List.find?_cons_of_neg (by simpa using hne)]
      exact ih h.2 hy

/-- With distinct takes, a context in flight is the one its take sequence names. -/
theorem State.ctx?_mem {s : State} (h : s.seqsOk) {c : Ctx} (hc : c ∈ s.contexts) : s.ctx? c.seq = some c :=
  find?_key (fun c : Ctx => c.seq) h hc

/-- No context is found for a take that is not in flight. -/
theorem State.ctx?_none {s : State} {q : Word} (h : ∀ c ∈ s.contexts, c.seq ≠ q) : s.ctx? q = none := by
  unfold State.ctx?
  rw [List.find?_eq_none]
  intro c hc
  simpa using h c hc

/-- The context list decides what a take names. -/
theorem State.ctx?_congr {s t : State} (h : t.contexts = s.contexts) (q : Word) : t.ctx? q = s.ctx? q := by
  unfold State.ctx?
  rw [h]

@[simp] theorem State.setPhase_contexts (s : State) (q : Word) (ph : Phase) :
    (s.setPhase q ph).contexts = s.contexts.map fun c => if c.seq = q then { c with phase := ph } else c := rfl
@[simp] theorem State.setPhase_writeQueue (s : State) (q : Word) (ph : Phase) :
    (s.setPhase q ph).writeQueue = s.writeQueue := rfl
@[simp] theorem State.freeCtx_contexts (s : State) (q : Word) :
    (s.freeCtx q).contexts = s.contexts.filter fun c => !decide (c.seq = q) := rfl

/-- The takes in flight stay the same through a change of phase. -/
theorem State.setPhase_seqs (s : State) (q : Word) (ph : Phase) :
    (s.setPhase q ph).contexts.map (·.seq) = s.contexts.map (·.seq) := by
  simp only [State.setPhase_contexts, List.map_map]
  apply List.map_congr_left
  intro c _
  simp only [Function.comp_apply]
  split <;> rfl

/-! ## The end of an order (R155) -/

/-- The end of an ACTIVE order: its result write, its DONE write, its context in CLOSING. -/
theorem State.endOrder_active (s : State) {q : Word} {slot prio : Nat} {o : Order} {p : Progress}
    (h : s.ctx? q = some ⟨slot, prio, q, .active o p⟩) (st : Status) (result : List Byte) :
    s.endOrder q st result = { s with
      writeQueue := s.writeQueue ++ [s.resultEntry slot result, s.doneEntry slot (some q) o.notify st],
      contexts := s.contexts.map fun c => if c.seq = q then { c with phase := .closing st o.standing } else c } := by
  unfold State.endOrder
  rw [h]
  simp only [State.setPhase, State.pushEntry, List.append_assoc, List.singleton_append]

/-- The end of a take without an ACTIVE order changes nothing. -/
theorem State.endOrder_other (s : State) {q : Word} (h : ∀ c, s.ctx? q = some c → ∀ o p, c.phase ≠ .active o p)
    (st : Status) (result : List Byte) : s.endOrder q st result = s := by
  unfold State.endOrder
  split
  · next e => exact absurd rfl (h _ e _ _)
  all_goals rfl

/-- The end of an order touches contexts and the write queue alone. -/
theorem State.endOrder_rest (s : State) (q : Word) (st : Status) (result : List Byte) :
    { s.endOrder q st result with contexts := s.contexts, writeQueue := s.writeQueue } = s := by
  unfold State.endOrder
  split <;> rfl

theorem State.endOrder_seqs (s : State) (q : Word) (st : Status) (result : List Byte) :
    (s.endOrder q st result).contexts.map (·.seq) = s.contexts.map (·.seq) := by
  unfold State.endOrder
  split
  · exact State.setPhase_seqs _ _ _
  all_goals rfl

/-- The end of a standing order that is ACTIVE. -/
theorem State.endStanding_active (s : State) {q : Word} {slot prio : Nat} {o : Order} {p : Progress}
    (h : s.ctx? q = some ⟨slot, prio, q, .active o p⟩) (hs : o.standing = true) (st : Status) :
    s.endStanding q st = { s with
      writeQueue := s.writeQueue ++ [s.resultEntry slot (s.standingResult o p), s.doneEntry slot (some q) false st],
      contexts := s.contexts.map fun c => if c.seq = q then { c with phase := .closing st true } else c } := by
  have hn : o.notify = false := by cases o <;> first | rfl | simp [Order.standing] at hs
  unfold State.endStanding
  rw [h]
  simp only [hs, if_true]
  rw [s.endOrder_active h, hn, hs]

/-- A view of present links alone counts as it stands. -/
theorem State.awaitView_present (s : State) {view : List (LinkId × LinkState)}
    (h : ∀ v ∈ view, (s.env v.1).present = true) : s.awaitView view = view := by
  unfold State.awaitView
  conv_rhs => rw [← List.map_id view]
  exact List.map_congr_left fun v hv => by simp [h v hv]

/-- A view counts a link as OFF, or as the view holds it where the link is present. -/
theorem State.mem_awaitView {s : State} {view : List (LinkId × LinkState)} {v : LinkId × LinkState}
    (h : v ∈ s.awaitView view) : v.2 = .off ∨ ((s.env v.1).present = true ∧ v ∈ view) := by
  unfold State.awaitView at h
  obtain ⟨w, hw, rfl⟩ := List.mem_map.1 h
  by_cases hp : (s.env w.1).present
  · exact .inr ⟨hp, by simpa [hp] using hw⟩
  · exact .inl (by simp [hp])

theorem State.endStanding_rest (s : State) (q : Word) (st : Status) :
    { s.endStanding q st with contexts := s.contexts, writeQueue := s.writeQueue } = s := by
  unfold State.endStanding
  split
  · split
    · exact State.endOrder_rest _ _ _ _
    · rfl
  · rfl

theorem State.endStanding_seqs (s : State) (q : Word) (st : Status) :
    (s.endStanding q st).contexts.map (·.seq) = s.contexts.map (·.seq) := by
  unfold State.endStanding
  split
  · split
    · exact State.endOrder_seqs _ _ _ _
    · rfl
  · rfl

/-! ## Rising post mark (R150, R158) -/

/-- Of two marks less than 2^31 past a base, the lower is the one nearer to it (R150). -/
theorem markLower_iff (b x y : Word) (hx : (x - b).toNat < 2 ^ 31) (hy : (y - b).toNat < 2 ^ 31) :
    markLower x y = true ↔ (x - b).toNat < (y - b).toNat := by
  unfold markLower earlier
  simp only [decide_eq_true_eq]
  constructor
  · rintro ⟨h1, h2⟩
    have : x.toNat ≠ y.toNat := fun h => h1 (BitVec.eq_of_toNat_eq h)
    bv_omega
  · intro h
    refine ⟨?_, by bv_omega⟩
    rintro rfl; omega

/-- A pending entry joins the sorted ones, and none is lost. -/
theorem sortPosts_insert_perm (p : PostEntry) (xs : List PostEntry) : (sortPosts.insert p xs).Perm (p :: xs) := by
  induction xs with
  | nil => exact List.Perm.refl _
  | cons q qs ih =>
    unfold sortPosts.insert
    split
    · exact (List.Perm.cons q ih).trans (List.Perm.swap p q qs)
    · exact List.Perm.refl _

/-- Sorting keeps every pending entry (R158). -/
theorem sortPosts_perm (xs : List PostEntry) : (sortPosts xs).Perm xs := by
  induction xs with
  | nil => exact List.Perm.refl _
  | cons p ps ih =>
    unfold sortPosts
    exact (sortPosts_insert_perm p _).trans (List.Perm.cons p ih)

/-- A pending entry joins the sorted ones at its place. -/
theorem sortPosts_insert_sorted (b : Word) (p : PostEntry) (xs : List PostEntry) (hp : (p.mark - b).toNat < 2 ^ 31)
    (hx : ∀ q ∈ xs, (q.mark - b).toNat < 2 ^ 31) (h : xs.Pairwise fun p q => (p.mark - b).toNat ≤ (q.mark - b).toNat) :
    (sortPosts.insert p xs).Pairwise fun p q => (p.mark - b).toNat ≤ (q.mark - b).toNat := by
  induction xs with
  | nil => simp [sortPosts.insert]
  | cons q qs ih =>
    have hq := hx q (by simp)
    unfold sortPosts.insert
    rw [List.pairwise_cons] at h
    split
    · next hl =>
      rw [markLower_iff b _ _ hq hp] at hl
      rw [List.pairwise_cons]
      refine ⟨fun r hr => ?_, ih (fun r hr => hx r (by simp [hr])) h.2⟩
      rcases List.mem_cons.1 ((sortPosts_insert_perm p qs).mem_iff.1 hr) with rfl | hr
      · exact Nat.le_of_lt hl
      · exact h.1 r hr
    · next hl =>
      rw [markLower_iff b _ _ hq hp] at hl
      have : (p.mark - b).toNat ≤ (q.mark - b).toNat := Nat.le_of_not_lt hl
      rw [List.pairwise_cons]
      refine ⟨fun r hr => ?_, List.pairwise_cons.2 h⟩
      rcases List.mem_cons.1 hr with rfl | hr
      · exact this
      · exact this.trans (h.1 r hr)

/-- Pending entries whose marks lie less than 2^31 past a base are sorted by rising mark (R150, R158). -/
theorem sortPosts_sorted (b : Word) (xs : List PostEntry) (hx : ∀ q ∈ xs, (q.mark - b).toNat < 2 ^ 31) :
    (sortPosts xs).Pairwise fun p q => (p.mark - b).toNat ≤ (q.mark - b).toNat := by
  induction xs with
  | nil => simp [sortPosts]
  | cons p ps ih =>
    unfold sortPosts
    refine sortPosts_insert_sorted b p _ (hx p (by simp)) (fun q hq => ?_) (ih fun q hq => hx q (by simp [hq]))
    exact hx q (by simp [(sortPosts_perm ps).mem_iff.1 hq])

/-! ## FENCE (R179) -/

/-- What a FENCE's context becomes when it stops waiting for a take; any other context stays. -/
def Ctx.released (gone : Word) (c : Ctx) : Ctx :=
  match c.phase with
  | .active o (.fencing left n) =>
    if (left.filter fun q => !decide (q = gone)).isEmpty then { c with phase := .closing .ok o.standing }
    else { c with phase := .active o (.fencing (left.filter fun q => !decide (q = gone)) n) }
  | _ => c

/-- The writes that it queues: its result and its DONE, where it waits for nothing more. -/
def State.fenceEntries (s : State) (gone : Word) (c : Ctx) : List QEntry :=
  match c.phase with
  | .active o (.fencing left n) =>
    if (left.filter fun q => !decide (q = gone)).isEmpty then
      [s.resultEntry c.slot (byte1 n), s.doneEntry c.slot (some c.seq) o.notify .ok]
    else []
  | _ => []

@[simp] theorem Ctx.released_seq (gone : Word) (c : Ctx) : (c.released gone).seq = c.seq := by
  unfold Ctx.released
  split
  · split <;> rfl
  · rfl

/-- A context of another phase stays as it is. -/
theorem Ctx.released_other {gone : Word} {c : Ctx} (h : ∀ o left n, c.phase ≠ .active o (.fencing left n)) :
    c.released gone = c := by
  unfold Ctx.released
  split
  · next e => exact absurd e (h _ _ _)
  · rfl

/-- A FENCE's context, by what it still waits for. -/
theorem Ctx.released_fence {gone : Word} {c : Ctx} {o : Order} {left : List Word} {n : Nat}
    (h : c.phase = .active o (.fencing left n)) :
    c.released gone = if ∀ k ∈ left, k = gone then { c with phase := .closing .ok o.standing }
      else { c with phase := .active o (.fencing (left.filter fun k => !decide (k = gone)) n) } := by
  unfold Ctx.released
  rw [h]
  simp

/-- The writes that a FENCE queues, by what it still waits for. -/
theorem State.fenceEntries_fence {s : State} {gone : Word} {c : Ctx} {o : Order} {left : List Word} {n : Nat}
    (h : c.phase = .active o (.fencing left n)) :
    s.fenceEntries gone c = if ∀ k ∈ left, k = gone then
      [s.resultEntry c.slot (byte1 n), s.doneEntry c.slot (some c.seq) o.notify .ok] else [] := by
  unfold State.fenceEntries
  rw [h]
  simp

/-- A change of the one context of a take, in its place in the list. -/
theorem map_setPhase_mid {pre suf : List Ctx} {c : Ctx} (h : ((pre ++ c :: suf).map (·.seq)).Nodup) (ph : Phase) :
    (pre ++ c :: suf).map (fun d => if d.seq = c.seq then { d with phase := ph } else d) =
      pre ++ { c with phase := ph } :: suf := by
  simp only [List.map_append, List.map_cons, List.nodup_append, List.nodup_cons, List.mem_map, List.mem_cons] at h
  obtain ⟨-, ⟨h2, -⟩, h3⟩ := h
  have he : ∀ xs : List Ctx, (∀ d ∈ xs, d.seq ≠ c.seq) →
      xs.map (fun d => if d.seq = c.seq then { d with phase := ph } else d) = xs := fun xs hx => by
    conv_rhs => rw [← List.map_id xs]
    exact List.map_congr_left fun d hd => by simp [hx d hd]
  rw [List.map_append, List.map_cons, if_pos rfl, he pre fun d hd => h3 _ ⟨d, hd, rfl⟩ _ (.inl rfl),
    he suf fun d hd e => h2 ⟨d, hd, e⟩]

/-- One FENCE of the list stops waiting for a take. -/
theorem State.fenceLeaves_mid (s : State) {pre suf : List Ctx} {c : Ctx} (gone : Word)
    (hc : s.contexts = pre ++ c :: suf) (h : s.seqsOk) :
    s.fenceLeaves c.seq gone = { s with
      contexts := pre ++ c.released gone :: suf, writeQueue := s.writeQueue ++ s.fenceEntries gone c } := by
  have hf : s.ctx? c.seq = some c := State.ctx?_mem h (by simp [hc])
  have hn : ((pre ++ c :: suf).map (·.seq)).Nodup := hc ▸ h
  obtain ⟨slot, prio, seq, ph⟩ := c
  unfold State.fenceLeaves Ctx.released State.fenceEntries
  rw [hf]
  cases ph with
  | active o p =>
    cases p with
    | fencing left n =>
      simp only
      split
      · rw [s.endOrder_active hf, hc, map_setPhase_mid hn]
      · simp only [State.setPhase, hc, map_setPhase_mid hn, List.append_nil]
    | _ => simp [← hc]
  | _ => simp [← hc]

/-- All that a take's leaving does: every FENCE waits for it no more, and those that then wait for nothing end, in the
order of the contexts. -/
theorem State.releaseFences_eq (s : State) (h : s.seqsOk) (gone : Word) :
    s.releaseFences gone = { s with
      contexts := s.contexts.map (Ctx.released gone),
      writeQueue := s.writeQueue ++ s.contexts.flatMap (s.fenceEntries gone) } := by
  have key : ∀ (suf pre : List Ctx) (t : State), t.contexts = pre ++ suf → t.seqsOk →
      (suf.map (·.seq)).foldl (fun s f => s.fenceLeaves f gone) t = { t with
        contexts := pre ++ suf.map (Ctx.released gone),
        writeQueue := t.writeQueue ++ suf.flatMap (t.fenceEntries gone) } := by
    intro suf
    induction suf with
    | nil => intro pre t hc _; simp [← hc]
    | cons c suf ih =>
      intro pre t hc hn
      simp only [List.map_cons, List.foldl_cons]
      rw [t.fenceLeaves_mid gone hc hn, ih (pre ++ [c.released gone])]
      · simp only [List.append_assoc, List.singleton_append, List.flatMap_cons]
        rfl
      · simp
      · have e : ((pre ++ c :: suf).map (·.seq)).Nodup := hc ▸ hn
        unfold State.seqsOk
        simpa using e
  exact key s.contexts [] s rfl h

end Sys2Proof.Machine
end

