-- ==== Sys2Proof/Laws/PerInstr.lean ====
section
/-! SUPPORT. Per command: when it is well formed, and that no word of the opcode table spells it. -/

namespace Sys2Proof.Laws.Shape
open Sys2Proof

/-- A command is well formed unless it is a register write that another row of the table is (R147, R180), and no word
of the table spells it (assumption log 27). -/
def Statement (i : Instr) : Prop :=
  (i.wf = false ↔ ∃ off v, i = .registerWrite off v ∧ decodeWrite off v ≠ .registerWrite off v) ∧
    ∀ n w, decodeTableWord n w ≠ some i

/-- Every command but a register write. -/
theorem of_other {i : Instr} (hw : i.wf = true) (hi : ∀ off v, i ≠ .registerWrite off v) : Statement i :=
  ⟨⟨fun h => by simp [hw] at h, fun ⟨off, v, h, _⟩ => (hi off v h).elim⟩, fun _ _ h => by simp [decodeTableWord] at h⟩

theorem powerOn : Statement (.powerOn) := of_other rfl nofun

theorem resetPin : Statement (.resetPin) := of_other rfl nofun

theorem start : Statement (.start) := of_other rfl nofun

theorem stop : Statement (.stop) := of_other rfl nofun

theorem resume : Statement (.resume) := of_other rfl nofun

theorem cpReset : Statement (.cpReset) := of_other rfl nofun

theorem post : ∀ index prio, Statement (.post index prio) := fun _ _ => of_other rfl nofun

theorem recallSlot : ∀ index, Statement (.recallSlot index) := fun _ => of_other rfl nofun

theorem release : ∀ index, Statement (.release index) := fun _ => of_other rfl nofun

theorem attentionBadAction : ∀ index prio, Statement (.attentionBadAction index prio) := fun _ _ => of_other rfl nofun

theorem noticeClear : ∀ bits, Statement (.noticeClear bits) := fun _ => of_other rfl nofun

theorem noticeEnableWrite : ∀ bits, Statement (.noticeEnableWrite bits) := fun _ => of_other rfl nofun

theorem registerWrite (offset value : Word) : Statement (.registerWrite offset value) := by
  refine ⟨⟨fun h => ⟨offset, value, rfl, by simpa [Instr.wf] using h⟩, ?_⟩, fun _ _ h => by simp [decodeTableWord] at h⟩
  rintro ⟨off, v, h, hne⟩
  cases h
  simpa [Instr.wf] using hne

theorem anchorReadDone : ∀ data, Statement (.anchorReadDone data) := fun _ => of_other rfl nofun

theorem loadBegin : Statement (.loadBegin) := of_other rfl nofun

theorem planRowReadDone : ∀ data, Statement (.planRowReadDone data) := fun _ => of_other rfl nofun

theorem rowChange : ∀ link, Statement (.rowChange link) := fun _ => of_other rfl nofun

theorem take : Statement (.take) := of_other rfl nofun

theorem slotReadDone : ∀ seq data, Statement (.slotReadDone seq data) := fun _ _ => of_other rfl nofun

theorem writerBegin : Statement (.writerBegin) := of_other rfl nofun

theorem recordWriteStepDone : ∀ err, Statement (.recordWriteStepDone err) := fun _ => of_other rfl nofun

theorem queueWriteDone : ∀ err, Statement (.queueWriteDone err) := fun _ => of_other rfl nofun

theorem pageArrival : ∀ port lane page, Statement (.pageArrival port lane page) := fun _ _ _ => of_other rfl nofun

theorem pageProcessorTurn : Statement (.pageProcessorTurn) := of_other rfl nofun

theorem pageTxStart : ∀ link now, Statement (.pageTxStart link now) := fun _ _ => of_other rfl nofun

theorem pageTxEnd : ∀ link now, Statement (.pageTxEnd link now) := fun _ _ => of_other rfl nofun

theorem announceExpiry : ∀ link, Statement (.announceExpiry link) := fun _ => of_other rfl nofun

theorem keepaliveTimerExpiry : ∀ link, Statement (.keepaliveTimerExpiry link) := fun _ => of_other rfl nofun

theorem byeCopyDue : ∀ link, Statement (.byeCopyDue link) := fun _ => of_other rfl nofun

theorem holdLimitExpiry : ∀ link, Statement (.holdLimitExpiry link) := fun _ => of_other rfl nofun

theorem holdForceLimitExpiry : ∀ link, Statement (.holdForceLimitExpiry link) := fun _ => of_other rfl nofun

theorem presenceDeadlineExpiry : ∀ link, Statement (.presenceDeadlineExpiry link) := fun _ => of_other rfl nofun

theorem absenceTimerExpiry : ∀ link, Statement (.absenceTimerExpiry link) := fun _ => of_other rfl nofun

theorem pairingTimerExpiry : ∀ link, Statement (.pairingTimerExpiry link) := fun _ => of_other rfl nofun

theorem verifyTimerExpiry : ∀ link, Statement (.verifyTimerExpiry link) := fun _ => of_other rfl nofun

theorem trainTimerExpiry : ∀ link, Statement (.trainTimerExpiry link) := fun _ => of_other rfl nofun

theorem qualifyWaitExpiry : ∀ link, Statement (.qualifyWaitExpiry link) := fun _ => of_other rfl nofun

theorem peerResultWaitExpiry : ∀ link, Statement (.peerResultWaitExpiry link) := fun _ => of_other rfl nofun

theorem backoffExpiry : ∀ link, Statement (.backoffExpiry link) := fun _ => of_other rfl nofun

theorem peerSilentExpiry : ∀ link, Statement (.peerSilentExpiry link) := fun _ => of_other rfl nofun

theorem burstIntervalEnd : ∀ link, Statement (.burstIntervalEnd link) := fun _ => of_other rfl nofun

theorem laneStreamError : ∀ link, Statement (.laneStreamError link) := fun _ => of_other rfl nofun

theorem lossOfSignal : ∀ port lane, Statement (.lossOfSignal port lane) := fun _ _ => of_other rfl nofun

theorem firstValidBeacon : ∀ link, Statement (.firstValidBeacon link) := fun _ => of_other rfl nofun

theorem quietBeacon : ∀ link, Statement (.quietBeacon link) := fun _ => of_other rfl nofun

theorem mapOutcome : ∀ link, Statement (.mapOutcome link) := fun _ => of_other rfl nofun

theorem mapFinding : ∀ link, Statement (.mapFinding link) := fun _ => of_other rfl nofun

theorem identReceived : ∀ link, Statement (.identReceived link) := fun _ => of_other rfl nofun

theorem trainReadyReceived : ∀ link, Statement (.trainReadyReceived link) := fun _ => of_other rfl nofun

theorem trainedReceived : ∀ link, Statement (.trainedReceived link) := fun _ => of_other rfl nofun

theorem qualReadyReceived : ∀ link, Statement (.qualReadyReceived link) := fun _ => of_other rfl nofun

theorem qualResultReceived : ∀ link, Statement (.qualResultReceived link) := fun _ => of_other rfl nofun

theorem requalReceived : ∀ link, Statement (.requalReceived link) := fun _ => of_other rfl nofun

theorem keepaliveReceived : ∀ link, Statement (.keepaliveReceived link) := fun _ => of_other rfl nofun

theorem byeReceived : ∀ link, Statement (.byeReceived link) := fun _ => of_other rfl nofun

theorem pageErrorReport : ∀ link, Statement (.pageErrorReport link) := fun _ => of_other rfl nofun

theorem echoReqDue : ∀ link, Statement (.echoReqDue link) := fun _ => of_other rfl nofun

theorem echoReplyReceived : ∀ link, Statement (.echoReplyReceived link) := fun _ => of_other rfl nofun

theorem echoReplyTimerExpiry : ∀ link sample, Statement (.echoReplyTimerExpiry link sample) := fun _ _ => of_other rfl nofun

theorem lengthResult : ∀ link, Statement (.lengthResult link) := fun _ => of_other rfl nofun

theorem markerTx : ∀ link, Statement (.markerTx link) := fun _ => of_other rfl nofun

theorem markerDetected : ∀ port lane time, Statement (.markerDetected port lane time) := fun _ _ _ => of_other rfl nofun

theorem skewMeasurementEnd : ∀ link, Statement (.skewMeasurementEnd link) := fun _ => of_other rfl nofun

theorem skewResult : ∀ link, Statement (.skewResult link) := fun _ => of_other rfl nofun

theorem engineRequest : ∀ link, Statement (.engineRequest link) := fun _ => of_other rfl nofun

theorem selfCheckRequest : Statement (.selfCheckRequest) := of_other rfl nofun

theorem engineDeparture : ∀ link, Statement (.engineDeparture link) := fun _ => of_other rfl nofun

theorem engineGrant : ∀ link, Statement (.engineGrant link) := fun _ => of_other rfl nofun

theorem startBlockReceived : ∀ engine lane, Statement (.startBlockReceived engine lane) := fun _ _ => of_other rfl nofun

theorem testWordReceived : ∀ engine lane word, Statement (.testWordReceived engine lane word) := fun _ _ _ => of_other rfl nofun

theorem runLimitExpiry : ∀ engine, Statement (.runLimitExpiry engine) := fun _ => of_other rfl nofun

theorem runResult : ∀ link, Statement (.runResult link) := fun _ => of_other rfl nofun

theorem bringUpEvent : ∀ link, Statement (.bringUpEvent link) := fun _ => of_other rfl nofun

theorem takeDownEvent : ∀ link, Statement (.takeDownEvent link) := fun _ => of_other rfl nofun

theorem requalifyEvent : ∀ link, Statement (.requalifyEvent link) := fun _ => of_other rfl nofun

theorem stateQuery : ∀ link, Statement (.stateQuery link) := fun _ => of_other rfl nofun

theorem linkAnswer : ∀ link, Statement (.linkAnswer link) := fun _ => of_other rfl nofun

theorem requalifyOutcome : ∀ link, Statement (.requalifyOutcome link) := fun _ => of_other rfl nofun

theorem loadEndReport : Statement (.loadEndReport) := of_other rfl nofun

theorem linkEvent : ∀ link, Statement (.linkEvent link) := fun _ => of_other rfl nofun

theorem awaitTimeout : ∀ seq, Statement (.awaitTimeout seq) := fun _ => of_other rfl nofun

theorem discrepancyEvent : ∀ link, Statement (.discrepancyEvent link) := fun _ => of_other rfl nofun

theorem holdoffExpiry : Statement (.holdoffExpiry) := of_other rfl nofun

theorem statusSpacingEnd : Statement (.statusSpacingEnd) := of_other rfl nofun

theorem uptimeTick : Statement (.uptimeTick) := of_other rfl nofun

end Sys2Proof.Laws.Shape
end

