-- ==== Sys2Proof/Laws/Sequencer.lean ====
section
/-! SUPPORT. What the shared operations of a link can do: queuing a page, announcing, the transition, BYE, a raised
discrepancy, a change of split. Each is said once, for later proofs to cite. -/

namespace Sys2Proof.Machine

/-! ## Queuing a page (R51) -/

/-- Queuing a page touches the queue, and, where it discards a request, the echo samples and the sequencer's
inbox. -/
theorem Link.queuePage_rest (lk : Link) (it : TxItem) :
    { lk.queuePage it with tx := lk.tx, echo := lk.echo, inbox := lk.inbox } = lk := by
  unfold Link.queuePage
  split
  · rfl
  split
  · rfl
  unfold Link.discarded
  split
  · split
    · unfold Link.setSample Link.echoSettle
      split <;> rfl
    · rfl
  · rfl

/-- Queuing a page keeps every event that waits. -/
theorem Link.queuePage_inbox (lk : Link) (it : TxItem) : lk.inbox <+: (lk.queuePage it).inbox := by
  unfold Link.queuePage
  split
  · exact List.prefix_refl _
  split
  · exact List.prefix_refl _
  unfold Link.discarded
  split
  · split
    · unfold Link.setSample Link.echoSettle
      split
      · exact List.prefix_append _ _
      · exact List.prefix_refl _
    · exact List.prefix_refl _
  · exact List.prefix_refl _

/-- The queue never holds more than four pages (R51). -/
theorem Link.queuePage_length (lk : Link) (it : TxItem) (h : lk.tx.length ≤ 4) : (lk.queuePage it).tx.length ≤ 4 := by
  have hd : ∀ (x : Link) (i : Option TxItem), (x.discarded i).tx = x.tx := by
    intro x i
    unfold Link.discarded
    split
    · split
      · unfold Link.setSample Link.echoSettle
        split <;> rfl
      · rfl
    · rfl
  unfold Link.queuePage
  split
  · exact h
  split
  · simp only [List.length_append, List.length_singleton]
    omega
  · rw [hd]
    simp only [List.length_append, List.length_drop, List.length_singleton]
    omega

@[simp] theorem Link.queuePage_record (lk : Link) (it : TxItem) : (lk.queuePage it).record = lk.record := by
  rw [← congrArg Link.record (lk.queuePage_rest it)]
@[simp] theorem Link.queuePage_stage (lk : Link) (it : TxItem) : (lk.queuePage it).stage = lk.stage := by
  rw [← congrArg Link.stage (lk.queuePage_rest it)]
@[simp] theorem Link.queuePage_timers (lk : Link) (it : TxItem) : (lk.queuePage it).timers = lk.timers := by
  rw [← congrArg Link.timers (lk.queuePage_rest it)]
@[simp] theorem Link.queuePage_peerUnits (lk : Link) (it : TxItem) : (lk.queuePage it).peerUnits = lk.peerUnits := by
  rw [← congrArg Link.peerUnits (lk.queuePage_rest it)]
@[simp] theorem Link.queuePage_peerBurst (lk : Link) (it : TxItem) : (lk.queuePage it).peerBurst = lk.peerBurst := by
  rw [← congrArg Link.peerBurst (lk.queuePage_rest it)]
@[simp] theorem Link.queuePage_ownSeed (lk : Link) (it : TxItem) : (lk.queuePage it).ownSeed = lk.ownSeed := by
  rw [← congrArg Link.ownSeed (lk.queuePage_rest it)]
@[simp] theorem Link.queuePage_requalRef (lk : Link) (it : TxItem) : (lk.queuePage it).requalRef = lk.requalRef := by
  rw [← congrArg Link.requalRef (lk.queuePage_rest it)]
@[simp] theorem Link.queuePage_burstCount (lk : Link) (it : TxItem) : (lk.queuePage it).burstCount = lk.burstCount := by
  rw [← congrArg Link.burstCount (lk.queuePage_rest it)]
@[simp] theorem Link.queuePage_burstLimit (lk : Link) (it : TxItem) : (lk.queuePage it).burstLimit = lk.burstLimit := by
  rw [← congrArg Link.burstLimit (lk.queuePage_rest it)]
@[simp] theorem Link.queuePage_gate (lk : Link) (it : TxItem) : (lk.queuePage it).gate = lk.gate := by
  rw [← congrArg Link.gate (lk.queuePage_rest it)]
@[simp] theorem Link.queuePage_sending (lk : Link) (it : TxItem) : (lk.queuePage it).sending = lk.sending := by
  rw [← congrArg Link.sending (lk.queuePage_rest it)]
@[simp] theorem Link.queuePage_owedFlow (lk : Link) (it : TxItem) : (lk.queuePage it).owedFlow = lk.owedFlow := by
  rw [← congrArg Link.owedFlow (lk.queuePage_rest it)]
@[simp] theorem Link.queuePage_owedEcho (lk : Link) (it : TxItem) : (lk.queuePage it).owedEcho = lk.owedEcho := by
  rw [← congrArg Link.owedEcho (lk.queuePage_rest it)]
@[simp] theorem Link.queuePage_holdForce (lk : Link) (it : TxItem) : (lk.queuePage it).holdForce = lk.holdForce := by
  rw [← congrArg Link.holdForce (lk.queuePage_rest it)]
@[simp] theorem Link.queuePage_heldBy (lk : Link) (it : TxItem) : (lk.queuePage it).heldBy = lk.heldBy := by
  rw [← congrArg Link.heldBy (lk.queuePage_rest it)]
@[simp] theorem Link.queuePage_bye (lk : Link) (it : TxItem) : (lk.queuePage it).bye = lk.bye := by
  rw [← congrArg Link.bye (lk.queuePage_rest it)]
@[simp] theorem Link.queuePage_byeTimer (lk : Link) (it : TxItem) : (lk.queuePage it).byeTimer = lk.byeTimer := by
  rw [← congrArg Link.byeTimer (lk.queuePage_rest it)]
@[simp] theorem Link.queuePage_rx (lk : Link) (it : TxItem) : (lk.queuePage it).rx = lk.rx := by
  rw [← congrArg Link.rx (lk.queuePage_rest it)]
@[simp] theorem Link.queuePage_obs (lk : Link) (it : TxItem) : (lk.queuePage it).obs = lk.obs := by
  rw [← congrArg Link.obs (lk.queuePage_rest it)]
@[simp] theorem Link.queuePage_skew (lk : Link) (it : TxItem) : (lk.queuePage it).skew = lk.skew := by
  rw [← congrArg Link.skew (lk.queuePage_rest it)]
@[simp] theorem Link.queuePage_delays (lk : Link) (it : TxItem) : (lk.queuePage it).delays = lk.delays := by
  rw [← congrArg Link.delays (lk.queuePage_rest it)]
@[simp] theorem Link.queuePage_toEngine (lk : Link) (it : TxItem) : (lk.queuePage it).toEngine = lk.toEngine := by
  rw [← congrArg Link.toEngine (lk.queuePage_rest it)]
@[simp] theorem Link.queuePage_toOrder (lk : Link) (it : TxItem) : (lk.queuePage it).toOrder = lk.toOrder := by
  rw [← congrArg Link.toOrder (lk.queuePage_rest it)]
@[simp] theorem Link.queuePage_toLog (lk : Link) (it : TxItem) : (lk.queuePage it).toLog = lk.toLog := by
  rw [← congrArg Link.toLog (lk.queuePage_rest it)]
@[simp] theorem Link.queuePage_wire (lk : Link) (it : TxItem) : (lk.queuePage it).wire = lk.wire := by
  rw [← congrArg Link.wire (lk.queuePage_rest it)]

/-- With room in the queue a page joins at its tail (R51). -/
theorem Link.queuePage_short (lk : Link) (it : TxItem) (h : lk.tx.length < 4)
    (h2 : lk.heldBy = none ∨ (it ≠ .beacon ∧ it ≠ .keepalive)) : lk.queuePage it = { lk with tx := lk.tx ++ [it] } := by
  unfold Link.queuePage
  rw [if_neg, if_pos h]
  rintro ⟨a, b⟩
  rcases h2 with h2 | h2
  · simp [h2] at a
  · exact b.elim h2.1 h2.2

/-- On an idle lane the page that is queued begins, and the queue stays empty (R52). -/
theorem Link.queueAtBoundary_idle (e : Env) (lk : Link) (it : TxItem) (h : lk.laneIdle = true)
    (hh : lk.heldBy = none) (hn : e.ownTag.named = true) :
    lk.queueAtBoundary e it = lk.beginPage e (.item it) (it.body e) := by
  have ht : lk.tx = [] := by simp only [Link.laneIdle, Bool.and_eq_true, List.isEmpty_iff] at h; exact h.1.1.2
  unfold Link.queueAtBoundary Link.beginQueued Link.beginPage
  rw [if_pos ⟨h, hn⟩, lk.queuePage_short it (by simp [ht]) (.inl hh)]
  simp [ht, hh]

/-- On a lane that is not idle the page only joins the queue (R51). -/
theorem Link.queueAtBoundary_busy (e : Env) (lk : Link) (it : TxItem) (h : lk.laneIdle = false) :
    lk.queueAtBoundary e it = lk.queuePage it := by
  unfold Link.queueAtBoundary
  rw [if_neg (by simp [h])]

/-- Queuing at a boundary touches the queue and the page in progress, and what a discard touches. -/
theorem Link.queueAtBoundary_rest (e : Env) (lk : Link) (it : TxItem) :
    { lk.queueAtBoundary e it with sending := lk.sending, tx := lk.tx, echo := lk.echo, inbox := lk.inbox } = lk := by
  have h := lk.queuePage_rest it
  unfold Link.queueAtBoundary
  split
  · unfold Link.beginQueued Link.beginPage
    split <;>
      exact (congrArg (fun x : Link => { x with sending := lk.sending }) h :)
  · exact (congrArg (fun x : Link => { x with sending := lk.sending }) h :)

@[simp] theorem Link.queueAtBoundary_record (e : Env) (lk : Link) (it : TxItem) :
    (lk.queueAtBoundary e it).record = lk.record := by rw [← congrArg Link.record (lk.queueAtBoundary_rest e it)]
@[simp] theorem Link.queueAtBoundary_stage (e : Env) (lk : Link) (it : TxItem) :
    (lk.queueAtBoundary e it).stage = lk.stage := by rw [← congrArg Link.stage (lk.queueAtBoundary_rest e it)]
@[simp] theorem Link.queueAtBoundary_timers (e : Env) (lk : Link) (it : TxItem) :
    (lk.queueAtBoundary e it).timers = lk.timers := by rw [← congrArg Link.timers (lk.queueAtBoundary_rest e it)]
@[simp] theorem Link.queueAtBoundary_toEngine (e : Env) (lk : Link) (it : TxItem) :
    (lk.queueAtBoundary e it).toEngine = lk.toEngine := by rw [← congrArg Link.toEngine (lk.queueAtBoundary_rest e it)]
@[simp] theorem Link.queueAtBoundary_toOrder (e : Env) (lk : Link) (it : TxItem) :
    (lk.queueAtBoundary e it).toOrder = lk.toOrder := by rw [← congrArg Link.toOrder (lk.queueAtBoundary_rest e it)]
@[simp] theorem Link.queueAtBoundary_toLog (e : Env) (lk : Link) (it : TxItem) :
    (lk.queueAtBoundary e it).toLog = lk.toLog := by rw [← congrArg Link.toLog (lk.queueAtBoundary_rest e it)]

/-! ## Announcing (R47) -/

/-- A fact that queuing a page keeps holds after a list of pages is queued. -/
theorem Link.queuePages_keep {P : Link → Prop} (h : ∀ lk it, P lk → P (lk.queuePage it)) (its : List TxItem)
    (lk : Link) (h0 : P lk) : P (its.foldl Link.queuePage lk) := by
  induction its generalizing lk with
  | nil => exact h0
  | cons i is ih => exact ih _ (h _ _ h0)

/-- Announcing touches the queue, the direct beacons and the announce timer, and what a discard touches. -/
theorem Link.announce_rest (e : Env) (lk : Link) :
    { lk.announce e with tx := lk.tx, echo := lk.echo, inbox := lk.inbox, wire := lk.wire } =
      { lk with timers := { lk.timers with announce := some (msec 1) } } := by
  unfold Link.announce
  refine Link.queuePages_keep (P := fun x => { x with tx := lk.tx, echo := lk.echo, inbox := lk.inbox, wire := lk.wire } =
    { lk with timers := { lk.timers with announce := some (msec 1) } }) (fun x it h => ?_) _ _ ?_
  · rw [← h]
    exact congrArg (fun y : Link => { y with tx := lk.tx, echo := lk.echo, inbox := lk.inbox, wire := lk.wire })
      (x.queuePage_rest it)
  · unfold Link.directBeacons
    split <;> rfl

theorem Link.announce_inbox (e : Env) (lk : Link) : lk.inbox <+: (lk.announce e).inbox := by
  unfold Link.announce
  refine Link.queuePages_keep (P := fun x => lk.inbox <+: x.inbox) (fun x it h => h.trans (x.queuePage_inbox it)) _ _ ?_
  unfold Link.directBeacons
  split <;> exact List.prefix_refl _

@[simp] theorem Link.announce_record (e : Env) (lk : Link) : (lk.announce e).record = lk.record := by
  have h := congrArg Link.record (lk.announce_rest e)
  exact h
@[simp] theorem Link.announce_stage (e : Env) (lk : Link) : (lk.announce e).stage = lk.stage := by
  have h := congrArg Link.stage (lk.announce_rest e)
  exact h
@[simp] theorem Link.announce_peerUnits (e : Env) (lk : Link) : (lk.announce e).peerUnits = lk.peerUnits := by
  have h := congrArg Link.peerUnits (lk.announce_rest e)
  exact h
@[simp] theorem Link.announce_peerBurst (e : Env) (lk : Link) : (lk.announce e).peerBurst = lk.peerBurst := by
  have h := congrArg Link.peerBurst (lk.announce_rest e)
  exact h
@[simp] theorem Link.announce_ownSeed (e : Env) (lk : Link) : (lk.announce e).ownSeed = lk.ownSeed := by
  have h := congrArg Link.ownSeed (lk.announce_rest e)
  exact h
@[simp] theorem Link.announce_requalRef (e : Env) (lk : Link) : (lk.announce e).requalRef = lk.requalRef := by
  have h := congrArg Link.requalRef (lk.announce_rest e)
  exact h
@[simp] theorem Link.announce_burstCount (e : Env) (lk : Link) : (lk.announce e).burstCount = lk.burstCount := by
  have h := congrArg Link.burstCount (lk.announce_rest e)
  exact h
@[simp] theorem Link.announce_burstLimit (e : Env) (lk : Link) : (lk.announce e).burstLimit = lk.burstLimit := by
  have h := congrArg Link.burstLimit (lk.announce_rest e)
  exact h
@[simp] theorem Link.announce_gate (e : Env) (lk : Link) : (lk.announce e).gate = lk.gate := by
  have h := congrArg Link.gate (lk.announce_rest e)
  exact h
@[simp] theorem Link.announce_sending (e : Env) (lk : Link) : (lk.announce e).sending = lk.sending := by
  have h := congrArg Link.sending (lk.announce_rest e)
  exact h
@[simp] theorem Link.announce_owedFlow (e : Env) (lk : Link) : (lk.announce e).owedFlow = lk.owedFlow := by
  have h := congrArg Link.owedFlow (lk.announce_rest e)
  exact h
@[simp] theorem Link.announce_owedEcho (e : Env) (lk : Link) : (lk.announce e).owedEcho = lk.owedEcho := by
  have h := congrArg Link.owedEcho (lk.announce_rest e)
  exact h
@[simp] theorem Link.announce_holdForce (e : Env) (lk : Link) : (lk.announce e).holdForce = lk.holdForce := by
  have h := congrArg Link.holdForce (lk.announce_rest e)
  exact h
@[simp] theorem Link.announce_heldBy (e : Env) (lk : Link) : (lk.announce e).heldBy = lk.heldBy := by
  have h := congrArg Link.heldBy (lk.announce_rest e)
  exact h
@[simp] theorem Link.announce_bye (e : Env) (lk : Link) : (lk.announce e).bye = lk.bye := by
  have h := congrArg Link.bye (lk.announce_rest e)
  exact h
@[simp] theorem Link.announce_byeTimer (e : Env) (lk : Link) : (lk.announce e).byeTimer = lk.byeTimer := by
  have h := congrArg Link.byeTimer (lk.announce_rest e)
  exact h
@[simp] theorem Link.announce_rx (e : Env) (lk : Link) : (lk.announce e).rx = lk.rx := by
  have h := congrArg Link.rx (lk.announce_rest e)
  exact h
@[simp] theorem Link.announce_obs (e : Env) (lk : Link) : (lk.announce e).obs = lk.obs := by
  have h := congrArg Link.obs (lk.announce_rest e)
  exact h
@[simp] theorem Link.announce_skew (e : Env) (lk : Link) : (lk.announce e).skew = lk.skew := by
  have h := congrArg Link.skew (lk.announce_rest e)
  exact h
@[simp] theorem Link.announce_delays (e : Env) (lk : Link) : (lk.announce e).delays = lk.delays := by
  have h := congrArg Link.delays (lk.announce_rest e)
  exact h
@[simp] theorem Link.announce_toEngine (e : Env) (lk : Link) : (lk.announce e).toEngine = lk.toEngine := by
  have h := congrArg Link.toEngine (lk.announce_rest e)
  exact h
@[simp] theorem Link.announce_toOrder (e : Env) (lk : Link) : (lk.announce e).toOrder = lk.toOrder := by
  have h := congrArg Link.toOrder (lk.announce_rest e)
  exact h
@[simp] theorem Link.announce_toLog (e : Env) (lk : Link) : (lk.announce e).toLog = lk.toLog := by
  have h := congrArg Link.toLog (lk.announce_rest e)
  exact h
@[simp] theorem Link.announce_timers (e : Env) (lk : Link) :
    (lk.announce e).timers = { lk.timers with announce := some (msec 1) } := by
  have h := congrArg Link.timers (lk.announce_rest e)
  exact h

/-! ## The transition (R61) -/

theorem Link.leaveQualify_rest (lk : Link) :
    { lk.leaveQualify with toEngine := lk.toEngine, toOrder := lk.toOrder, requalRef := lk.requalRef } = lk := by
  unfold Link.leaveQualify
  split <;> rfl

@[simp] theorem Link.leaveQualify_record (lk : Link) : lk.leaveQualify.record = lk.record := by
  rw [← congrArg Link.record lk.leaveQualify_rest]
@[simp] theorem Link.leaveQualify_stage (lk : Link) : lk.leaveQualify.stage = lk.stage := by
  rw [← congrArg Link.stage lk.leaveQualify_rest]
@[simp] theorem Link.leaveQualify_timers (lk : Link) : lk.leaveQualify.timers = lk.timers := by
  rw [← congrArg Link.timers lk.leaveQualify_rest]
@[simp] theorem Link.leaveQualify_peerUnits (lk : Link) : lk.leaveQualify.peerUnits = lk.peerUnits := by
  rw [← congrArg Link.peerUnits lk.leaveQualify_rest]
@[simp] theorem Link.leaveQualify_peerBurst (lk : Link) : lk.leaveQualify.peerBurst = lk.peerBurst := by
  rw [← congrArg Link.peerBurst lk.leaveQualify_rest]
@[simp] theorem Link.leaveQualify_ownSeed (lk : Link) : lk.leaveQualify.ownSeed = lk.ownSeed := by
  rw [← congrArg Link.ownSeed lk.leaveQualify_rest]
@[simp] theorem Link.leaveQualify_burstCount (lk : Link) : lk.leaveQualify.burstCount = lk.burstCount := by
  rw [← congrArg Link.burstCount lk.leaveQualify_rest]
@[simp] theorem Link.leaveQualify_burstLimit (lk : Link) : lk.leaveQualify.burstLimit = lk.burstLimit := by
  rw [← congrArg Link.burstLimit lk.leaveQualify_rest]
@[simp] theorem Link.leaveQualify_gate (lk : Link) : lk.leaveQualify.gate = lk.gate := by
  rw [← congrArg Link.gate lk.leaveQualify_rest]
@[simp] theorem Link.leaveQualify_tx (lk : Link) : lk.leaveQualify.tx = lk.tx := by
  rw [← congrArg Link.tx lk.leaveQualify_rest]
@[simp] theorem Link.leaveQualify_sending (lk : Link) : lk.leaveQualify.sending = lk.sending := by
  rw [← congrArg Link.sending lk.leaveQualify_rest]
@[simp] theorem Link.leaveQualify_owedFlow (lk : Link) : lk.leaveQualify.owedFlow = lk.owedFlow := by
  rw [← congrArg Link.owedFlow lk.leaveQualify_rest]
@[simp] theorem Link.leaveQualify_owedEcho (lk : Link) : lk.leaveQualify.owedEcho = lk.owedEcho := by
  rw [← congrArg Link.owedEcho lk.leaveQualify_rest]
@[simp] theorem Link.leaveQualify_holdForce (lk : Link) : lk.leaveQualify.holdForce = lk.holdForce := by
  rw [← congrArg Link.holdForce lk.leaveQualify_rest]
@[simp] theorem Link.leaveQualify_heldBy (lk : Link) : lk.leaveQualify.heldBy = lk.heldBy := by
  rw [← congrArg Link.heldBy lk.leaveQualify_rest]
@[simp] theorem Link.leaveQualify_bye (lk : Link) : lk.leaveQualify.bye = lk.bye := by
  rw [← congrArg Link.bye lk.leaveQualify_rest]
@[simp] theorem Link.leaveQualify_byeTimer (lk : Link) : lk.leaveQualify.byeTimer = lk.byeTimer := by
  rw [← congrArg Link.byeTimer lk.leaveQualify_rest]
@[simp] theorem Link.leaveQualify_rx (lk : Link) : lk.leaveQualify.rx = lk.rx := by
  rw [← congrArg Link.rx lk.leaveQualify_rest]
@[simp] theorem Link.leaveQualify_obs (lk : Link) : lk.leaveQualify.obs = lk.obs := by
  rw [← congrArg Link.obs lk.leaveQualify_rest]
@[simp] theorem Link.leaveQualify_echo (lk : Link) : lk.leaveQualify.echo = lk.echo := by
  rw [← congrArg Link.echo lk.leaveQualify_rest]
@[simp] theorem Link.leaveQualify_skew (lk : Link) : lk.leaveQualify.skew = lk.skew := by
  rw [← congrArg Link.skew lk.leaveQualify_rest]
@[simp] theorem Link.leaveQualify_delays (lk : Link) : lk.leaveQualify.delays = lk.delays := by
  rw [← congrArg Link.delays lk.leaveQualify_rest]
@[simp] theorem Link.leaveQualify_inbox (lk : Link) : lk.leaveQualify.inbox = lk.inbox := by
  rw [← congrArg Link.inbox lk.leaveQualify_rest]
@[simp] theorem Link.leaveQualify_toLog (lk : Link) : lk.leaveQualify.toLog = lk.toLog := by
  rw [← congrArg Link.toLog lk.leaveQualify_rest]
@[simp] theorem Link.leaveQualify_wire (lk : Link) : lk.leaveQualify.wire = lk.wire := by
  rw [← congrArg Link.wire lk.leaveQualify_rest]

@[simp] theorem Link.move_record (e : Env) (lk : Link) (st : LinkState) (en : Entry) :
    (lk.move e st en).record = lk.record.move e.uptime st := by
  unfold Link.move Link.entrySends Link.moveUnits Link.movePages
  cases st <;> simp [LinkState.clears, Link.clearPages, Link.cancelBye]
@[simp] theorem Link.move_stage (e : Env) (lk : Link) (st : LinkState) (en : Entry) :
    (lk.move e st en).stage = en.stage := by
  unfold Link.move Link.entrySends Link.moveUnits Link.movePages
  cases st <;> simp [LinkState.clears, Link.clearPages, Link.cancelBye]
@[simp] theorem Link.move_gate (e : Env) (lk : Link) (st : LinkState) (en : Entry) :
    (lk.move e st en).gate = decide (st = .up) := by
  unfold Link.move Link.entrySends Link.moveUnits Link.movePages
  cases st <;> simp [LinkState.clears, Link.clearPages, Link.cancelBye]
@[simp] theorem Link.move_toLog (e : Env) (lk : Link) (st : LinkState) (en : Entry) :
    (lk.move e st en).toLog = lk.toLog := by
  unfold Link.move Link.entrySends Link.moveUnits Link.movePages
  cases st <;> simp [LinkState.clears, Link.clearPages, Link.cancelBye]
@[simp] theorem Link.move_ownSeed (e : Env) (lk : Link) (st : LinkState) (en : Entry) :
    (lk.move e st en).ownSeed = lk.ownSeed := by
  unfold Link.move Link.entrySends Link.moveUnits Link.movePages
  cases st <;> simp [LinkState.clears, Link.clearPages, Link.cancelBye]
@[simp] theorem Link.move_sending (e : Env) (lk : Link) (st : LinkState) (en : Entry) :
    (lk.move e st en).sending = lk.sending := by
  unfold Link.move Link.entrySends Link.moveUnits Link.movePages
  cases st <;> simp [LinkState.clears, Link.clearPages, Link.cancelBye]
@[simp] theorem Link.move_timers (e : Env) (lk : Link) (st : LinkState) (en : Entry) :
    (lk.move e st en).timers = { entryTimers e st en.backoff with announce := some (msec 1) } := by
  unfold Link.move Link.entrySends Link.moveUnits Link.movePages
  cases st <;> simp [LinkState.clears, Link.clearPages, Link.cancelBye]
@[simp] theorem Link.move_toOrder (e : Env) (lk : Link) (st : LinkState) (en : Entry) :
    (lk.move e st en).toOrder = lk.leaveQualify.toOrder ++ [e.event (.state st lk.record.state)] := by
  unfold Link.move Link.entrySends Link.moveUnits Link.movePages
  cases st <;> simp [LinkState.clears, Link.clearPages, Link.cancelBye]
theorem Link.move_bye (e : Env) (lk : Link) (st : LinkState) (en : Entry) (h : st ≠ .pairing) :
    (lk.move e st en).bye = lk.bye := by
  unfold Link.move Link.entrySends Link.moveUnits Link.movePages
  cases st <;> first | exact absurd rfl h | simp [LinkState.clears, Link.clearPages]
/-- A transition keeps every event that waits. -/
theorem Link.move_inbox (e : Env) (lk : Link) (st : LinkState) (en : Entry) : lk.inbox <+: (lk.move e st en).inbox := by
  have k : ∀ p : Link, p.inbox = lk.inbox → lk.inbox <+: (p.announce e).inbox := fun p h => h ▸ p.announce_inbox e
  have h := lk.leaveQualify_inbox
  unfold Link.move Link.entrySends Link.moveUnits Link.movePages
  cases st <;> simp only [LinkState.clears, if_true, Bool.false_eq_true, reduceCtorEq, if_false]
  case up => refine List.IsPrefix.trans ?_ (Link.queuePage_inbox _ _); exact k _ h
  case verify => refine List.IsPrefix.trans ?_ (Link.queuePage_inbox _ _); exact k _ h
  all_goals exact k _ h

@[simp] theorem LinkRecord.move_state (r : LinkRecord) (u : Word) (st : LinkState) : (r.move u st).state = st := rfl
@[simp] theorem LinkRecord.move_prev (r : LinkRecord) (u : Word) (st : LinkState) : (r.move u st).prev = r.state := rfl
@[simp] theorem LinkRecord.move_lastReason (r : LinkRecord) (u : Word) (st : LinkState) :
    (r.move u st).lastReason = r.lastReason := by
  unfold LinkRecord.move LinkRecord.enter LinkRecord.leave
  cases st <;> simp [LinkRecord.clearObserved, LinkRecord.clearQualification] <;> split <;> rfl
@[simp] theorem LinkRecord.move_adminDown (r : LinkRecord) (u : Word) (st : LinkState) :
    (r.move u st).adminDown = r.adminDown := by
  unfold LinkRecord.move LinkRecord.enter LinkRecord.leave
  cases st <;> simp [LinkRecord.clearObserved, LinkRecord.clearQualification] <;> split <;> rfl
@[simp] theorem LinkRecord.move_selfCheck (r : LinkRecord) (u : Word) (st : LinkState) :
    (r.move u st).selfCheck = r.selfCheck := by
  unfold LinkRecord.move LinkRecord.enter LinkRecord.leave
  cases st <;> simp [LinkRecord.clearObserved, LinkRecord.clearQualification] <;> split <;> rfl
theorem LinkRecord.move_retries (r : LinkRecord) (u : Word) (st : LinkState) (h : st ≠ .up) :
    (r.move u st).retries = r.retries := by
  unfold LinkRecord.move LinkRecord.enter LinkRecord.leave
  cases st <;> simp_all [LinkRecord.clearQualification] <;> split <;> rfl
theorem LinkRecord.move_farExpect (r : LinkRecord) (u : Word) (st : LinkState) (h : st ≠ .listen) :
    (r.move u st).farExpect = r.farExpect := by
  unfold LinkRecord.move LinkRecord.enter LinkRecord.leave
  cases st <;> simp_all [LinkRecord.clearQualification] <;> split <;> rfl

/-- The record's part of entering BACKOFF, HELD, OFF, PAIRING, VERIFY or TRAIN from a state other than UP and HELD: the
two states alone (R5, R61). -/
theorem LinkRecord.move_plain (r : LinkRecord) (u : Word) (st : LinkState) (h1 : r.state ≠ .up) (h2 : r.state ≠ .held)
    (h3 : st ≠ .listen) (h4 : st ≠ .qualify) (h5 : st ≠ .up) : r.move u st = { r with prev := r.state, state := st } := by
  have hl : r.leave = r := by
    unfold LinkRecord.leave
    split <;> first | contradiction | rfl
  unfold LinkRecord.move LinkRecord.enter
  rw [hl]
  cases st <;> first | contradiction | rfl

/-! ## BYE (R49) -/

@[simp] theorem Link.sendBye_record (lk : Link) (r : ByeReason) : (lk.sendBye r).record = lk.record := by
  simp [Link.sendBye]
@[simp] theorem Link.sendBye_toLog (lk : Link) (r : ByeReason) : (lk.sendBye r).toLog = lk.toLog := by
  simp [Link.sendBye]
@[simp] theorem Link.sendBye_bye (lk : Link) (r : ByeReason) : (lk.sendBye r).bye = some ⟨r, 2⟩ := by
  simp [Link.sendBye]
theorem Link.sendBye_inbox (lk : Link) (r : ByeReason) : lk.inbox <+: (lk.sendBye r).inbox :=
  Link.queuePage_inbox { lk with tx := [], bye := some ⟨r, 2⟩, byeTimer := some (msec 1) } _
@[simp] theorem Link.byeIfConversing_record (lk : Link) (r : ByeReason) :
    (lk.byeIfConversing r).record = lk.record := by
  unfold Link.byeIfConversing
  split <;> simp
@[simp] theorem Link.byeIfConversing_toLog (lk : Link) (r : ByeReason) : (lk.byeIfConversing r).toLog = lk.toLog := by
  unfold Link.byeIfConversing
  split <;> simp
theorem Link.byeIfConversing_bye (lk : Link) (r : ByeReason) (h : lk.record.state.conversing = true) :
    (lk.byeIfConversing r).bye = some ⟨r, 2⟩ := by
  unfold Link.byeIfConversing
  simp [h]
theorem Link.byeIfConversing_inbox (lk : Link) (r : ByeReason) : lk.inbox <+: (lk.byeIfConversing r).inbox := by
  unfold Link.byeIfConversing
  split
  · exact Link.sendBye_inbox _ _
  · exact List.prefix_refl _

/-! ## A raised discrepancy (R73) -/

@[simp] theorem Link.raise_record (e : Env) (lk : Link) (k : DiscKind) (d : Nat) (x o : Option Tag) (t : Word) :
    (lk.raise e k d x o t).record =
      if k = .heldDown then lk.record else { lk.record with lastReason := .disc k } := by
  unfold Link.raise
  dsimp only
  split <;> rfl
@[simp] theorem Link.raise_toLog (e : Env) (lk : Link) (k : DiscKind) (d : Nat) (x o : Option Tag) (t : Word) :
    (lk.raise e k d x o t).toLog = lk.toLog ++ [⟨k, BitVec.ofNat 32 d, x, o, lk.record.farExpect, t⟩] := by
  unfold Link.raise
  dsimp only
  split <;> rfl
@[simp] theorem Link.raise_toOrder (e : Env) (lk : Link) (k : DiscKind) (d : Nat) (x o : Option Tag) (t : Word) :
    (lk.raise e k d x o t).toOrder =
      lk.toOrder ++ [e.event (.discrepancy k (BitVec.ofNat 32 d))] := by
  unfold Link.raise
  dsimp only
  split <;> rfl
@[simp] theorem Link.raise_stage (e : Env) (lk : Link) (k : DiscKind) (d : Nat) (x o : Option Tag) (t : Word) :
    (lk.raise e k d x o t).stage = lk.stage := by
  unfold Link.raise
  dsimp only
  split <;> rfl
@[simp] theorem Link.raise_timers (e : Env) (lk : Link) (k : DiscKind) (d : Nat) (x o : Option Tag) (t : Word) :
    (lk.raise e k d x o t).timers = lk.timers := by
  unfold Link.raise
  dsimp only
  split <;> rfl
@[simp] theorem Link.raise_peerUnits (e : Env) (lk : Link) (k : DiscKind) (d : Nat) (x o : Option Tag) (t : Word) :
    (lk.raise e k d x o t).peerUnits = lk.peerUnits := by
  unfold Link.raise
  dsimp only
  split <;> rfl
@[simp] theorem Link.raise_peerBurst (e : Env) (lk : Link) (k : DiscKind) (d : Nat) (x o : Option Tag) (t : Word) :
    (lk.raise e k d x o t).peerBurst = lk.peerBurst := by
  unfold Link.raise
  dsimp only
  split <;> rfl
@[simp] theorem Link.raise_ownSeed (e : Env) (lk : Link) (k : DiscKind) (d : Nat) (x o : Option Tag) (t : Word) :
    (lk.raise e k d x o t).ownSeed = lk.ownSeed := by
  unfold Link.raise
  dsimp only
  split <;> rfl
@[simp] theorem Link.raise_requalRef (e : Env) (lk : Link) (k : DiscKind) (d : Nat) (x o : Option Tag) (t : Word) :
    (lk.raise e k d x o t).requalRef = lk.requalRef := by
  unfold Link.raise
  dsimp only
  split <;> rfl
@[simp] theorem Link.raise_burstCount (e : Env) (lk : Link) (k : DiscKind) (d : Nat) (x o : Option Tag) (t : Word) :
    (lk.raise e k d x o t).burstCount = lk.burstCount := by
  unfold Link.raise
  dsimp only
  split <;> rfl
@[simp] theorem Link.raise_burstLimit (e : Env) (lk : Link) (k : DiscKind) (d : Nat) (x o : Option Tag) (t : Word) :
    (lk.raise e k d x o t).burstLimit = lk.burstLimit := by
  unfold Link.raise
  dsimp only
  split <;> rfl
@[simp] theorem Link.raise_gate (e : Env) (lk : Link) (k : DiscKind) (d : Nat) (x o : Option Tag) (t : Word) :
    (lk.raise e k d x o t).gate = lk.gate := by
  unfold Link.raise
  dsimp only
  split <;> rfl
@[simp] theorem Link.raise_tx (e : Env) (lk : Link) (k : DiscKind) (d : Nat) (x o : Option Tag) (t : Word) :
    (lk.raise e k d x o t).tx = lk.tx := by
  unfold Link.raise
  dsimp only
  split <;> rfl
@[simp] theorem Link.raise_sending (e : Env) (lk : Link) (k : DiscKind) (d : Nat) (x o : Option Tag) (t : Word) :
    (lk.raise e k d x o t).sending = lk.sending := by
  unfold Link.raise
  dsimp only
  split <;> rfl
@[simp] theorem Link.raise_owedFlow (e : Env) (lk : Link) (k : DiscKind) (d : Nat) (x o : Option Tag) (t : Word) :
    (lk.raise e k d x o t).owedFlow = lk.owedFlow := by
  unfold Link.raise
  dsimp only
  split <;> rfl
@[simp] theorem Link.raise_owedEcho (e : Env) (lk : Link) (k : DiscKind) (d : Nat) (x o : Option Tag) (t : Word) :
    (lk.raise e k d x o t).owedEcho = lk.owedEcho := by
  unfold Link.raise
  dsimp only
  split <;> rfl
@[simp] theorem Link.raise_holdForce (e : Env) (lk : Link) (k : DiscKind) (d : Nat) (x o : Option Tag) (t : Word) :
    (lk.raise e k d x o t).holdForce = lk.holdForce := by
  unfold Link.raise
  dsimp only
  split <;> rfl
@[simp] theorem Link.raise_heldBy (e : Env) (lk : Link) (k : DiscKind) (d : Nat) (x o : Option Tag) (t : Word) :
    (lk.raise e k d x o t).heldBy = lk.heldBy := by
  unfold Link.raise
  dsimp only
  split <;> rfl
@[simp] theorem Link.raise_bye (e : Env) (lk : Link) (k : DiscKind) (d : Nat) (x o : Option Tag) (t : Word) :
    (lk.raise e k d x o t).bye = lk.bye := by
  unfold Link.raise
  dsimp only
  split <;> rfl
@[simp] theorem Link.raise_byeTimer (e : Env) (lk : Link) (k : DiscKind) (d : Nat) (x o : Option Tag) (t : Word) :
    (lk.raise e k d x o t).byeTimer = lk.byeTimer := by
  unfold Link.raise
  dsimp only
  split <;> rfl
@[simp] theorem Link.raise_rx (e : Env) (lk : Link) (k : DiscKind) (d : Nat) (x o : Option Tag) (t : Word) :
    (lk.raise e k d x o t).rx = lk.rx := by
  unfold Link.raise
  dsimp only
  split <;> rfl
@[simp] theorem Link.raise_obs (e : Env) (lk : Link) (k : DiscKind) (d : Nat) (x o : Option Tag) (t : Word) :
    (lk.raise e k d x o t).obs = lk.obs := by
  unfold Link.raise
  dsimp only
  split <;> rfl
@[simp] theorem Link.raise_echo (e : Env) (lk : Link) (k : DiscKind) (d : Nat) (x o : Option Tag) (t : Word) :
    (lk.raise e k d x o t).echo = lk.echo := by
  unfold Link.raise
  dsimp only
  split <;> rfl
@[simp] theorem Link.raise_skew (e : Env) (lk : Link) (k : DiscKind) (d : Nat) (x o : Option Tag) (t : Word) :
    (lk.raise e k d x o t).skew = lk.skew := by
  unfold Link.raise
  dsimp only
  split <;> rfl
@[simp] theorem Link.raise_delays (e : Env) (lk : Link) (k : DiscKind) (d : Nat) (x o : Option Tag) (t : Word) :
    (lk.raise e k d x o t).delays = lk.delays := by
  unfold Link.raise
  dsimp only
  split <;> rfl
@[simp] theorem Link.raise_inbox (e : Env) (lk : Link) (k : DiscKind) (d : Nat) (x o : Option Tag) (t : Word) :
    (lk.raise e k d x o t).inbox = lk.inbox := by
  unfold Link.raise
  dsimp only
  split <;> rfl
@[simp] theorem Link.raise_toEngine (e : Env) (lk : Link) (k : DiscKind) (d : Nat) (x o : Option Tag) (t : Word) :
    (lk.raise e k d x o t).toEngine = lk.toEngine := by
  unfold Link.raise
  dsimp only
  split <;> rfl
@[simp] theorem Link.raise_wire (e : Env) (lk : Link) (k : DiscKind) (d : Nat) (x o : Option Tag) (t : Word) :
    (lk.raise e k d x o t).wire = lk.wire := by
  unfold Link.raise
  dsimp only
  split <;> rfl

/-! ## A retryable failure (R74, R75) -/

/-- Below the retry limit: BACKOFF, with one retry more. -/
theorem Link.retryable_below (e : Env) (lk : Link) (why : Reason) (h1 : lk.record.state ≠ .up)
    (h2 : lk.record.state ≠ .held) (hr : lk.record.retries < e.leg.retryLimit) :
    (lk.retryable e why).record = { lk.record with
      state := .backoff, prev := lk.record.state, lastReason := why, retries := lk.record.retries + 1 } ∧
    (lk.retryable e why).timers =
      { backoff := some (10000000 * 2 ^ lk.record.retries), announce := some 1000000 } ∧
    (lk.retryable e why).toLog = lk.toLog := by
  unfold Link.retryable
  simp only [Link.setReason, hr, if_true]
  refine ⟨?_, ?_, ?_⟩
  · rw [Link.move_record]
    exact LinkRecord.move_plain _ _ _ h1 h2 (by simp) (by simp) (by simp)
  · rw [Link.move_timers]
    simp [entryTimers, msec]
  · simp

/-- At the retry limit: HELD, exhausted, with HELD_DOWN. -/
theorem Link.retryable_limit (e : Env) (lk : Link) (why : Reason) (h1 : lk.record.state ≠ .up)
    (h2 : lk.record.state ≠ .held) (hr : e.leg.retryLimit ≤ lk.record.retries) :
    (lk.retryable e why).record = { lk.record with
      state := .held, prev := lk.record.state, lastReason := why, exhausted := true } ∧
    (lk.retryable e why).toLog = lk.toLog ++ [⟨.heldDown, BitVec.ofNat 32 why.code, e.expected,
      lk.neighbourTag, lk.record.farExpect, e.uptime⟩] := by
  have hm := LinkRecord.move_plain { lk.record with lastReason := why } e.uptime .held h1 h2 (by simp) (by simp)
    (by simp)
  unfold Link.retryable
  simp only [Link.setReason, Nat.not_lt.2 hr, if_false]
  refine ⟨?_, ?_⟩
  · rw [Link.raise_record, if_pos rfl, Link.move_record]
    exact congrArg (fun r : LinkRecord => { r with exhausted := true }) hm
  · rw [Link.raise_toLog]
    simp only [Link.neighbourTag, Link.move_record]
    rw [hm]
    simp

/-! ## A change of split (R4, R29) -/

/-- A row change that leaves the split as it was leaves the link's width as it was. -/
theorem Link.fitWidth_same (e : Env) (lk : Link) (d : RowDelta) (leg : Fin 2) (h : d.splitChanged = false) :
    lk.fitWidth e d leg = lk := by
  simp [Link.fitWidth, h]

/-- All that a change of split does to the record: its lists. -/
theorem Link.fitWidth_record (e : Env) (lk : Link) (d : RowDelta) (leg : Fin 2) (h : d.splitChanged = true) :
    (lk.fitWidth e d leg).record = { lk.record with
      laneMap := List.replicate e.width none, deskew := List.replicate e.width none,
      laneLmis := List.replicate e.width none } := by
  simp only [Link.fitWidth, h, if_true]
  split <;> rfl

/-- A change of split cuts off a link that it leaves without lanes. -/
theorem Link.fitWidth_cut (e : Env) (lk : Link) (d : RowDelta) (leg : Fin 2) (h : d.splitChanged = true)
    (hp : ¬(e.present = true ∧ d.present leg = true)) :
    (lk.fitWidth e d leg).bye = none ∧ (lk.fitWidth e d leg).tx = [] ∧ (lk.fitWidth e d leg).sending = none := by
  simp only [Link.fitWidth, h, if_true, if_neg hp, Link.cutOff, Link.cancelBye, and_self]

end Sys2Proof.Machine
end

