-- ==== Sys2Proof/Tests/Slice0.lean ====
section
/-! SUPPORT. The model's own tests: well-formedness, the attention word, the spec's worked examples, one step of
each kind, and for every statement with hypotheses a state that meets them (`witness_<Name>`). -/

namespace Sys2Proof.Tests
open Sys2Proof Sys2Proof.Machine

/-! ## Small states -/

/-- The peer of section 11's worked sequence, 52.3.1.0. -/
def peer : Tag := ⟨52, 3, 1, 0⟩

/-- A leg that expects the peer at 50 dm within 10 dm, enforced. -/
def plan : LegPlan := ⟨.specific, some peer, some (50, 10), 0, .enforce, .allow, 3, 5⟩

/-- A leg that expects any far end, reporting only. -/
def loose : LegPlan := { plan with kind := .any, tag := none, length := none, strict := .report }

/-- An enabled WHOLE row. -/
def rowOf (p : LegPlan) : PlanRow := ⟨true, .whole, p, none⟩

/-- An anchor that passes the checks of R183: chassis 17, controller slot 2. -/
def anchor : Anchor where
  orderBase := 0x10000
  planBase := 0x20000
  recordBase := 0x30000
  logBase := 0x40000
  statusBase := 0x50000
  winLow := 0
  winHigh := 0x1000000
  slotCount := 24
  logLength := 4
  trigger := 2
  holdoff := 1
  chassis := 17
  slot := 2
  classes := Bank.fill 4 ⟨300, 260, 32, 80, 100⟩

/-- RUNNING, with an anchor in effect and every row VALID with the same leg. -/
def base (p : LegPlan := plan) : State :=
  { State.reset with
    part := .running, anchor := some anchor, accepted := true, planBase := some 0x20000,
    rows := Bank.fill 32 (.valid (rowOf p)), log := List.replicate 4 none }

/-- The base state with another link 0. -/
def at0 (f : Link → Link) (p : LegPlan := plan) : State := (base p).putLink 0 (f ((base p).link 0))

/-- A link in a state, with events in its inbox. -/
def inState (st : LinkState) (inbox : List SeqEvent := []) (lk : Link) : Link :=
  { lk with record := { lk.record with state := st }, inbox := inbox, gate := decide (st = .up) }

/-- A link in a state that knows its neighbour. -/
def paired (st : LinkState) (inbox : List SeqEvent := []) (lk : Link) : Link :=
  { lk with record := { lk.record with state := st, neighbour := some ⟨peer, .whole⟩ }, inbox := inbox }

/-- A context of slot 2 at priority 3 with take sequence 7. -/
def ctx (ph : Phase) : Ctx := ⟨2, 3, 7, ph⟩

/-- The base state with that context. -/
def order (ph : Phase) : State := { base with contexts := [ctx ph], takeSeq := 7 }

/-- The base state with a message of link 0 to the Order Unit. -/
def message (ph : Phase) (m : OrdMsg) : State :=
  { order ph with links := (order ph).links.set 0 { (order ph).link 0 with toOrder := [m] } }

/-- The bytes of a slot that is POSTED at priority 3: kind, flags, and parameters from offset 16. -/
def slot (kind flags : Byte) (params : List Byte) : Vector Byte 128 :=
  ⟨⟨padTo 128 0 ([1, 0, 0, 0, kind, 3, flags, 0] ++ zeros 8 ++ params)⟩, by simp [padTo]; omega⟩

/-! ## Well-formedness and the register window -/

/-- Each write that another row is, is not well formed as a REGISTER_WRITE (R180). -/
theorem test_wf_refuses_other_rows :
    (Instr.registerWrite 0x04 1).wf = false ∧ (Instr.registerWrite 0x04 2).wf = false ∧
    (Instr.registerWrite 0x04 3).wf = false ∧ (Instr.registerWrite 0x04 4).wf = false ∧
    (Instr.registerWrite 0x0C 0).wf = false ∧ (Instr.registerWrite 0x0C 3).wf = false ∧
    (Instr.registerWrite 0x10 0).wf = false ∧ (Instr.registerWrite 0x14 0).wf = false := by decide

/-- CONTROL with a value of no row, and a read-only register (R180). -/
theorem test_wf_accepts_plain_writes :
    (Instr.registerWrite 0x04 5).wf = true ∧ (Instr.registerWrite 0x08 1).wf = true ∧
    (Instr.registerWrite 0x18 0x1000).wf = true := by decide

/-- Attention words written out bit by bit (R147, R180): action 1..0, index 15..8, priority 18..16. -/
theorem test_decode_attention :
    decodeAttention 0b0000_0000_0000_0101_0000_1001_0000_0001 = .post 9 5 ∧
    decodeAttention 0b0000_0000_0000_0000_0001_0111_0000_0010 = .recallSlot 23 ∧
    decodeAttention 0b1111_1111_1111_1000_0000_0011_1111_1111 = .release 3 ∧
    decodeAttention 0b0000_0000_0000_0111_1111_1111_0000_0000 = .attentionBadAction 255 7 := by decide

/-- IDENT reads its constant, a fresh STATE and an unknown offset read 0 (R180). -/
theorem test_reset_registers :
    State.reset.readRegister 0 = 0x4B132081 ∧ State.reset.readRegister 8 = 0 ∧ State.reset.readRegister 0x2C = 0 := by
  decide

/-! ## The spec's worked values -/

/-- Packed tags of section 11.9. -/
theorem test_tag_packing :
    (⟨31, 0, 14, 0⟩ : Tag).pack = 0x01F00E00 ∧ (⟨17, 2, 3, 0⟩ : Tag).pack = 0x01120300 ∧
    Tag.unpack 0x01F00E00 = ⟨31, 0, 14, 0⟩ := by decide

/-- Lane map bytes 5 and 6 of section 11.8. -/
theorem test_lane_map_bytes :
    laneMapByte (some ⟨5, true⟩) = 0xC5 ∧ laneMapByte (some ⟨7, false⟩) = 0x87 ∧ laneMapByte none = 0 := by decide

/-- Cases A, B and C at the thresholds, and section 11.11 (R125, R126). -/
theorem test_lmis :
    [0, 5, 0, 7].map (laneLmi (windowWords 46)) = [343, 303, 343, 295] ∧
    [15, 16].map (laneLmi (windowWords 256)) = [320, 319] ∧
    laneLmi (windowWords 16384) 0 = 480 ∧ laneLmi (windowWords 1) 65535 = 0 ∧
    [0, 7, 2, 0, 32, 1, 0, 5, 8, 33].map (laneLmi (windowWords 16)) = [320, 272, 296, 320, 240, 304, 320, 280, 270, 239] := by
  decide

/-- Case D, and the local verdict of section 11.11 (R128). -/
theorem test_verdicts :
    localVerdict ⟨320, 0, 256, 120, 1⟩ 352 112 = .pass ∧ localVerdict ⟨320, 0, 256, 100, 1⟩ 352 112 = .marginal ∧
    localVerdict ⟨272, 240, 16, 150, 1⟩ 240 130 = .marginal ∧ localVerdict ⟨272, 240, 16, 150, 1⟩ 239 130 = .fail := by
  decide

/-- The three echoes, the two echoes and the length check of section 5.6 (R107 to R109). -/
theorem test_lengths :
    [sampleLength 512 300, sampleLength 509 300, sampleLength 515 301] = [172, 169, 174] ∧
    measuredLength [172, 169, 174] = some 172 ∧ measuredLength [172, 174] = some 172 ∧
    measuredLength [] = none ∧ lengthFails 172 150 15 = true ∧ lengthFails 165 150 15 = false := by decide

/-- The deskew of link 14 in section 5.5 (R103). -/
theorem test_deskew : skewSpan [37, 0, 112, 58] = 112 ∧ deskewDelays [37, 0, 112, 58] = [75, 112, 0, 54] := by decide

/-- A link record without its generation, a page without its check, a discrepancy record without its state. -/
theorem test_layout_sizes :
    (LinkRecord.fresh 8).body.length = 94 ∧ (pageHead peer .keepalive).length = 14 ∧
    (HeldRec.body ⟨0, .length, .length, 1, none, none, none, 0, 0, 0⟩).length = 44 := by decide

/-- The bytes of a KEEPALIVE head from 52.3.1.0: kind 10, the packed tag 0x03430100 little-endian (R197). -/
theorem test_page_head : pageHead peer .keepalive = [10, 0, 0x00, 0x01, 0x43, 0x03, 0, 0, 0, 0, 0, 0, 0, 0] := by decide

/-- A built page passes the tests of R40, and one with a flipped bit is tagged CHECK. -/
theorem test_page_round_trip :
    judgePage true (pageBytes peer (.qualResult .pass 310)) = .ok ⟨peer, .qualResult .pass 310⟩ ∧
    judgePage true ((pageBytes peer .keepalive).set 6 1) = .error .check ∧
    judgePage false (pageBytes peer .keepalive) = .error .frame := by decide +kernel

/-! ## One step each -/

/-- What a command leaves, from a state. -/
def after (c : Instr) (s : State) : State :=
  match exec c s with
  | .next t => t
  | .fault _ | .refused _ => s

/-- The take race of section 11.10: the take goes first, RECALL 7 is TOO_LATE (R154). -/
theorem test_recall_after_take :
    (after (.recallSlot 7) (after .take { base with posted := [⟨7, 3, 901⟩, ⟨8, 3, 902⟩], takeSeq := 511 })).attn =
      .tooLate := by decide

/-- The same race with RECALL first: slot 8 is taken with sequence 512 (R152). -/
theorem test_recall_before_take :
    (after .take (after (.recallSlot 7) { base with posted := [⟨7, 3, 901⟩, ⟨8, 3, 902⟩], takeSeq := 511 })).contexts =
      [⟨8, 3, 512, .reading false⟩] := by decide

/-- Higher priority goes first, and a mark that has wrapped is later than one that has not (R150, R152). -/
theorem test_take_order :
    (after .take { base with posted := [⟨1, 2, 5⟩, ⟨2, 6, 1⟩, ⟨3, 6, 0xFFFFFFFF⟩] }).contexts.map (·.slot) = [3] := by
  decide

/-- The uptime wraps (R194). -/
theorem test_uptime_wraps : (after .uptimeTick { base with uptime := 0xFFFFFFFF }).uptime = 0 := by decide

/-- A gate opens with UP: section 11.8's last event. -/
theorem test_final_verdict_opens_gate :
    let s := at0 fun lk => { paired .qualify [.page ⟨peer, .qualResult .pass 310⟩] lk with
      stage := { run := .ended }, record := { (paired .qualify [] lk).record with localV := some .pass, legLmi := some 304 } }
    ((after (.qualResultReceived 0) s).link 0).record.state = .up ∧ ((after (.qualResultReceived 0) s).link 0).gate = true := by
  decide

/-- A link held after the last retry: HELD_DOWN carries the cause, the record keeps it (R74). -/
theorem test_retry_limit :
    let s := at0 fun lk => { inState .train [] lk with
      timers := { train := some 1 }, record := { (inState .train [] lk).record with retries := 3 } }
    ((after (.trainTimerExpiry 0) s).link 0).record.lastReason = .timeoutTrain ∧
    ((after (.trainTimerExpiry 0) s).link 0).toLog.map (·.detail) = [35] := by decide

/-- Pages of a link that is quiet are not taken (R41). -/
theorem test_quiet_link_takes_no_page :
    ((after (.pageArrival 0 0 ⟨true, false, pageBytes peer (.beacon .whole 0), 0, 0⟩) base).link 0).inbox = [] := by
  decide +kernel

/-! ## States that meet the hypotheses of the statements -/

/-- Takes in flight that are written out are distinct where their list is. -/
theorem seqsOk_of {s : State} (h : (s.contexts.map (·.seq)).Nodup) : s.seqsOk := h

/-- A command answers the state it leaves. -/
theorem answers {c : Instr} {s t : State} (h : exec c s = .next t) : ∃ t, exec c s = .next t := ⟨t, h⟩

theorem witness_StepRunsTheFrontCommand : State.reset.pending = [] := rfl

theorem witness_EveryCommandAnswers :
    decodeWrite 0x04 9 = .registerWrite 0x04 9 ∧ decodeWrite 0x04 4 = .cpReset ∧
    decodeWrite 0x0C 0x3F03 = .release 0x3F ∧ decodeWrite 0x14 0x1F = .noticeEnableWrite 0x1F := by decide

/-- A REGISTER_WRITE of an attention word is that word: POST of slot 5 at priority 3 (R147, R180). -/
theorem test_register_write_posts :
    (after (.registerWrite 0x0C 0x30501) base).posted = [⟨5, 3, 1⟩] := by decide

/-- A REGISTER_WRITE of CONTROL with 2 is STOP (R181, R185). -/
theorem test_register_write_stops : (after (.registerWrite 0x04 2) base).part = .quiescing := by decide

theorem witness_ResetIsTheInitialState :
    Instr.powerOn ∈ [Instr.powerOn, Instr.resetPin] ∧ Instr.resetPin ∈ [Instr.powerOn, Instr.resetPin] := by decide

theorem witness_LinkCommandsChangeOneLink :
    let s := at0 (inState .off [.bringUp 7]);
    linkOfCommand s (.bringUpEvent 0) = some 0 ∧ exec (.bringUpEvent 0) s = .next (after (.bringUpEvent 0) s) ∧
      linkOfCommand s (.pageArrival 31 7 ⟨true, false, [], 0, 0⟩) = some 62 ∧
      exec (.rowChange 0) s = .next (after (.rowChange 0) s) := ⟨by decide, rfl, by decide, rfl⟩

/-- A record write of link 63 whose first step is in issue. -/
def writing63 : State := { base with writing := some (.record 63 0x317A0 4 (zeros 94) .up false 0 false) }

theorem witness_MemoryChangesOnlyByWriteSteps :
    (exec .take base = .next (after .take base) ∧ endsWriteStep .take = false) ∧
    exec (.recordWriteStepDone false) writing63 = .next (after (.recordWriteStepDone false) writing63) ∧
    ∀ w ∈ writing63.stepsInProgress, 0x31000 < w.addr := ⟨⟨rfl, rfl⟩, rfl, by decide⟩

/-- The state with a command at the front. -/
def queued (c : Instr) (s : State) : State := { s with pending := [c] }

theorem witness_EveryStepKeepsMemoryCanonical :
    let s := queued (.recordWriteStepDone false) { writing63 with hostMem := [(0, 1), (5, 2)] };
    s.memOk ∧ ∃ t, step s = .next t := ⟨by unfold State.memOk; decide, _, rfl⟩

theorem witness_EveryStepKeepsGatesWithUp :
    let s := queued (.peerSilentExpiry 0) (at0 fun lk => { inState .up [] lk with timers := { peerSilent := some 1 } });
    s.gatesOk ∧ ∃ t, step s = .next t := ⟨by unfold State.gatesOk; decide, _, rfl⟩

theorem witness_EveryStepKeepsTheBounds :
    let s := queued .take { order (.reading false) with
      posted := [⟨5, 0, 1⟩], dirty := [3, 1], log := [some ⟨3, .length, .length, 1, none, none, none, 0, 0, 0⟩, none] };
    s.logOk ∧ s.contextsOk ∧ s.pagesOk ∧ s.dirtyOk ∧ s.seqsOk ∧ (∀ c ∈ s.contexts, c.seq ≠ s.takeSeq + 1) ∧
      ∃ t, step s = .next t :=
  ⟨by unfold State.logOk; decide, by unfold State.contextsOk; decide, by unfold State.pagesOk; decide,
    by unfold State.dirtyOk; decide, seqsOk_of (by decide), by decide, _, rfl⟩

/-- Every engine of the base state is FREE. -/
theorem base_enginesOk : (base).enginesOk := by
  have h : ∀ e, (base).engine e = Engine.free [] := by decide
  intro e
  rw [h e]
  exact ⟨fun _ ho => by simp [Engine.free] at ho, fun _ hw => by simp [Engine.free] at hw⟩

theorem witness_EveryStepKeepsEnginesOnTheirPorts :
    (queued (.engineRequest 0) base).enginesOk ∧ ∃ t, step (queued (.engineRequest 0) base) = .next t :=
  ⟨base_enginesOk, _, rfl⟩

/-- A status block entry. -/
def statusEntry (m : StatusMark := .plain) : QEntry := ⟨.status m, []⟩

theorem witness_EveryStepKeepsOneStatusEntryWaiting :
    let s := queued (.queueWriteDone (some 0)) { base with
      writeQueue := [statusEntry .loading, statusEntry], writing := some (.queue [⟨0x50000, [1, 0]⟩]) };
    s.statusOk ∧ ∃ t, step s = .next t ∧ t.writeQueue = [statusEntry .loading] :=
  ⟨by unfold State.statusOk; decide, _, rfl, rfl⟩

theorem witness_RegisterWritesActAtOnce :
    (Instr.registerWrite 0x18 0x80).wf = true ∧ (Instr.registerWrite 0x1C 1).wf = true ∧
    (Instr.registerWrite 0x00 7).wf = true ∧ (Instr.registerWrite 0x04 0).wf = true := by decide

/-- LOADING before the anchor block is accepted. -/
def loading : State :=
  { State.reset with part := .loading, loading := some .anchor, anchorRead := .outstanding, anchorLo := 0x1000 }

/-- A WATCH and an AWAIT of link 0, ACTIVE. -/
def watching : Phase := .active (.watch 1 ⟨true, true, true⟩ 0x60000 2) (.written 0)
def awaiting : Phase := .active (.await 1 0x40 50 false) (.viewing [] [(0, .listen)] (some 50000000))

theorem witness_RecallIsAnsweredAtOnce :
    State.reset.part = .idle ∧ (loading.part ≠ .idle ∧ loading.beforeAccept = true) ∧
    ((base).part ≠ .idle ∧ (base).beforeAccept = false ∧ (base).slotCount ≤ (24 : Byte).toNat ∧
      (23 : Byte).toNat < (base).slotCount) ∧
    (∃ p ∈ ({ base with posted := [⟨23, 0, 1⟩] } : State).posted, p.slot = (23 : Byte).toNat) ∧
    ((∀ p ∈ (base).posted, p.slot ≠ (23 : Byte).toNat) ∧ ∀ c ∈ (base).contexts, c.slot ≠ (23 : Byte).toNat) ∧
    (∀ ph ∈ [watching, .reading false], (∀ p ∈ (order ph).posted, p.slot ≠ (2 : Byte).toNat) ∧ (order ph).seqsOk ∧
      ctx ph ∈ (order ph).contexts ∧ (ctx ph).slot = (2 : Byte).toNat ∧
      ∀ d ∈ (order ph).contexts, d.slot = (2 : Byte).toNat → d = ctx ph) ∧
    (∃ o p, (ctx watching).phase = .active o p ∧ o.standing = true) ∧
    (∀ o p, (ctx (.reading false)).phase = .active o p → o.standing = false) := by
  refine ⟨rfl, by decide, by decide, by decide, by decide, fun ph _ => ⟨?_, ?_, ?_, rfl, ?_⟩, ⟨_, _, rfl, rfl⟩, nofun⟩ <;>
    simp [order, ctx, base, State.reset, State.seqsOk]

/-- A record that link 0 holds. -/
def held : HeldRec := ⟨0, .length, .length, 254, none, none, none, 60, 1, 1⟩

theorem witness_ReleaseFreesAHeldRecord :
    State.reset.part = .idle ∧ (loading.part ≠ .idle ∧ loading.beforeAccept = true) ∧
    ((base).part ≠ .idle ∧ (base).beforeAccept = false ∧ (base).log.length ≤ (4 : Byte).toNat ∧
      (base).log[(3 : Byte).toNat]? = some none) ∧
    (let s : State := { base with log := [none, none, none, some held] };
      s.log[(3 : Byte).toNat]? = some (some held) ∧ s.accepted = true) := by decide

theorem witness_StartEntersLoading :
    (base).part ≠ .idle ∧ (State.reset.part = .idle ∧ State.reset.anchorAddr.toNat % 128 = 0) ∧
    (let s : State := { State.reset with anchorLo := 64 };
      s.part = .idle ∧ s.anchorAddr.toNat % 128 ≠ 0) := by decide

theorem witness_StopEntersQuiescing :
    (State.reset.part ≠ .running ∧ State.reset.part ≠ .loading) ∧
    (let s : State := { order watching with posted := [⟨9, 0, 1⟩] };
      s.part = .running ∧ s.accepted = true ∧ s.seqsOk ∧ ⟨9, 0, 1⟩ ∈ s.posted ∧ ctx watching ∈ s.contexts) ∧
    (order (.reading false)).part = .running ∧
    (loading.part = .loading ∧ loading.accepted = false ∧ loading.contexts = [] ∧ loading.writeQueue = [] ∧
      loading.posted = []) ∧
    (let s : State := { order watching with
        part := .loading, loading := some .plan, posted := [⟨9, 0, 0⟩, ⟨8, 0, 0xFFFFFFFF⟩] };
      s.part = .loading ∧ s.accepted = true ∧ s.seqsOk ∧ ctx watching ∈ s.contexts ∧
        ∀ p ∈ s.posted, (p.mark - 0xFFFFFFFF).toNat < 2 ^ 31) ∧
    (∃ o p, (ctx watching).phase = .active o p ∧ o.standing = true) := by
  refine ⟨by decide, ⟨rfl, rfl, seqsOk_of (by decide), ?_, ?_⟩, rfl, by decide,
    ⟨rfl, rfl, seqsOk_of (by decide), ?_, by decide⟩, ⟨_, _, rfl, rfl⟩⟩ <;> simp [order]

/-- Pending slots end in rising post mark, also over the wrap of the count (R150, R158), in LOADING too (R185). -/
theorem test_stop_ends_slots_in_order :
    ∀ p ∈ [PartState.running, .loading],
      ((after .stop { base with part := p, posted := [⟨9, 0, 0⟩, ⟨8, 0, 0xFFFFFFFF⟩] }).writeQueue.map (·.kind)).filter
        (fun k => !k.isStatus) = [.done 8 none false, .done 9 none false] := by decide +kernel

theorem witness_ResumeGoesBack :
    (base).part ≠ .faulted ∧
    (∀ p ∈ [PartState.loading, .running], let s : State := { base with part := .faulted, resume := some p };
      s.part = .faulted ∧ s.resume = some p ∧ p ≠ .quiescing) ∧
    (let s : State := { loading with part := .faulted, resume := some .quiescing };
      s.part = .faulted ∧ s.resume = some .quiescing ∧ s.contexts = [] ∧ s.writeQueue = [] ∧ s.accepted = false) := by
  decide

theorem witness_ControlResetKeepsTheLinks :
    (base).enginesOk ∧ ((base).engine (engineOfLink 0)).owner = none ∧
    (let s := (base).putEngine 0 (Engine.running (.self ⟨7, 0, 1, 0, 3⟩) [] 1 65536);
      (s.engine (engineOfLink 0)).owner = some (.self ⟨7, 0, 1, 0, 3⟩) ∧ (0 : PortId) = portOf 0) ∧
    (∀ w ∈ [Writing.record 63 0x317A0 4 (zeros 94) .up false 2 false, .queue [⟨0x10100, [3]⟩], .finishing ⟨0x10100, [3]⟩],
      ({ base with writing := some w } : State).writing = some w) ∧ (base).writing = none ∧
    ∀ w, ({ base with writing := w } : State).enginesOk :=
  ⟨base_enginesOk, by decide, by decide, by decide, by decide, fun _ => base_enginesOk⟩

/-- A record write that CP_RESET ends in its first step lands where it was issued, whatever the anchor has become
(R13, R188). -/
theorem test_ended_write_keeps_its_place :
    let t := after .cpReset writing63
    (after (.recordWriteStepDone false) { t with anchor := none }).hostMem = [(0x317A0, 5), (0x317A1, 0)] := by decide

/-! ### Anchor, plan and rows -/

/-- An anchor block that the checks accept, and the row of section 11.8. -/
def anchorBytes : Vector Byte 128 :=
  ⟨⟨padTo 128 0 (leBytes 8 0x10000 ++ leBytes 8 0x20000 ++ leBytes 8 0x30000 ++ leBytes 8 0x40000 ++ leBytes 8 0x50000 ++
    leBytes 8 0 ++ leBytes 8 0x1000000 ++ [64, 32, 1, 0, 17, 0, 2, 0])⟩, by simp [padTo, leBytes]⟩

def rowBytes : Vector Byte 64 :=
  ⟨⟨[9, 1, 1, 0] ++ [1, 1, 1, 0, 3, 5, 0, 0] ++ leBytes 4 peer.pack.toNat ++ zeros 47 ++ [9]⟩, by simp [zeros, leBytes]⟩

/-- A HALF row in which leg 1 is class 3, the highest. -/
def halfBytes : Vector Byte 64 :=
  ⟨⟨[9, 1, 2, 0] ++ [2, 1, 1, 0, 3, 5, 0, 0] ++ zeros 20 ++ [3, 2, 2, 3, 7, 7, 0, 0] ++ zeros 23 ++ [9]⟩, by simp [zeros]⟩

/-- A row read that was torn. -/
def tornBytes : Vector Byte 64 := rowBytes.set 63 8

theorem witness_AnchorReadIsJudged :
    0 < ({ loading with staleAnchorReads := 1 } : State).staleAnchorReads ∧
    ((base).staleAnchorReads = 0 ∧ (base).anchorRead ≠ .outstanding) ∧
    (loading.staleAnchorReads = 0 ∧ loading.anchorRead = .outstanding ∧ loading.part = .loading ∧
      loading.notices &&& Notice.busFault = 0) ∧
    judgeAnchor (Bank.fill 128 0 : Vector Byte 128).toList = .error .chassis ∧
    (∃ a, judgeAnchor anchorBytes.toList = .ok a ∧ tagsDiffer loading.anchor a = true) ∧
    (LinkState.pairing.conversing = true ∧ LinkState.up.conversing = true ∧ LinkState.listen.conversing = false) :=
  ⟨by decide, by decide, by decide, rfl, ⟨_, rfl, rfl⟩, by decide⟩

theorem witness_HostDataIsClamped :
    (∃ a, judgeAnchor anchorBytes.toList = .ok a ∧ a.slotCount = 64 ∧ a.logLength = 32) ∧
    (∃ r, rowValue rowBytes.toList = .valid r ∧ r.leg0.tag = some peer ∧ r.leg1 = none) ∧
    ∃ r p, rowValue halfBytes.toList = .valid r ∧ r.leg1 = some p ∧ p.cls = 3 ∧ p.retryLimit = 7 :=
  ⟨⟨_, rfl, by decide, by decide⟩, ⟨_, rfl, by decide, by decide⟩, ⟨_, _, rfl, rfl, by decide, by decide⟩⟩

/-- A load of some rows in its read stage. -/
def load (req : LoadReq) (todo : List PortId) (tries : Nat := 0) : Load := ⟨req, 0x20000, todo, tries, [], true⟩

/-- The base state with a load in progress. -/
def reading (req : LoadReq) (todo : List PortId) (tries : Nat := 0) : State :=
  { base with load := some (load req todo tries) }

theorem witness_LoadsReadTheirRows :
    (base).loadQueue = [] ∧ (reading .start [0]).load ≠ none ∧ State.reset.part = .idle ∧
    ((let s : State := { base with loadQueue := [.start] };
      s.load = none ∧ s.loadQueue = [.start] ∧ s.part ≠ .faulted ∧ s.part ≠ .idle ∧ s.anchor = some anchor ∧
        s.planBase = some 0x20000)) ∧
    0 < ({ base with stalePlanReads := 1 } : State).stalePlanReads ∧
    ((base).stalePlanReads = 0 ∧ (base).load = none) ∧
    (∀ tries ∈ [0, 1, 2], let s := reading (.adopt 7 0x20000) [30, 31] tries;
      s.stalePlanReads = 0 ∧ s.load = some (load (.adopt 7 0x20000) [30, 31] tries) ∧
        (load (.adopt 7 0x20000) [30, 31] tries).todo = 30 :: 31 :: []) ∧
    (rowBytes[0] = rowBytes[63] ∧ tornBytes[0] ≠ tornBytes[63]) ∧
    (∀ tries ∈ [0, 1], let s := reading (.refresh 7 (.port 31)) [31] tries;
      s.load = some (load (.refresh 7 (.port 31)) [31] tries) ∧ (load (.refresh 7 (.port 31)) [31] tries).tries < 2) ∧
    (∀ req ∈ [LoadReq.start, .adopt 7 0x20000, .refresh 7 (.port 31)], let s := reading req [31];
      s.load = some (load req [31]) ∧ (load req [31]).reading = true ∧
        s.part ∈ [PartState.loading, .running, .quiescing] ∧ s.notices &&& Notice.busFault = 0) := by decide

/-- A VALID row of two legs. -/
def halfRow (p q : LegPlan) : RowState := .valid ⟨true, .half, p, some q⟩

theorem witness_LoadsApplyAllRowsAtOnce :
    (let s := reading (.refresh 7 (.port 31)) [31];
      let ld := load (.refresh 7 (.port 31)) [31];
      s.stalePlanReads = 0 ∧ s.load = some ld ∧ ld.reading = true ∧ ld.todo = [31] ∧ rowBytes[0] = rowBytes[63] ∧
        ld.aside.map (·.1) ++ [31] = ld.req.scope.rows ∧
        s.newRows ld.req.scope (ld.aside ++ [(31, rowValue rowBytes.toList)]) =
          (.port 31, [(31, rowValue rowBytes.toList)]) ∧ rowValue rowBytes.toList ≠ s.row 31) ∧
    (let s : State := { base with rows := Bank.fill 32 (halfRow plan plan) };
      s.row (portOf 63) = halfRow plan plan ∧ legOf 63 = 1 ∧ s.splitOf 31 = .half) ∧
    (let s : State := { base with rows := Bank.fill 32 (.valid (rowOf plan)) };
      s.row (portOf 63) = .valid (rowOf plan) ∧ legOf 63 = 1 ∧ (rowOf plan).split = .whole ∧ (rowOf plan).leg1 = none) ∧
    (base).row (portOf 63) ≠ halfRow plan plan ∧ (∀ k, Scope.all ≠ .link k) := by
  refine ⟨⟨rfl, rfl, rfl, rfl, rfl, rfl, rfl, by decide⟩, by decide, by decide, by decide, nofun⟩

/-- A third torn read, and a change of split under a link in PAIRING. -/
theorem witness_LoadsApplyAllRowsAtOnce_torn_and_split :
    (let s := reading (.refresh 7 (.port 31)) [31] 2;
      s.load = some (load (.refresh 7 (.port 31)) [31] 2) ∧ (load (.refresh 7 (.port 31)) [31] 2).tries = 2 ∧
        tornBytes[0] ≠ tornBytes[63] ∧ s.newRows (.port 31) [(31, .invalid .torn)] = (.port 31, [(31, .invalid .torn)])) ∧
    (let s := (reading (.refresh 7 (.port 0)) [0]).putLink 0 (inState .pairing [] ((base).link 0));
      (rowValue halfBytes.toList).split ≠ s.splitOf 0 ∧ portOf 0 = 0 ∧ (s.link 0).record.state = .pairing ∧
        (s.link 0).record.laneMap.length ≤ 8 ∧ s.part ≠ .idle ∧
        s.newRows (.port 0) [(0, rowValue halfBytes.toList)] = (.port 0, [(0, rowValue halfBytes.toList)])) := by decide

/-- A row change of link 0 from one row to another, the new one in the Plan Cache. -/
def changed (old new : RowState) (st : LinkState) : State :=
  { at0 (inState st [.rowChange ⟨old, new⟩]) with rows := Bank.fill 32 new }

theorem witness_RowChangeReconciles :
    (∀ st ∈ [LinkState.off, .listen, .up],
      let d : RowDelta := ⟨.valid (rowOf plan), .valid { rowOf plan with enable := false }⟩;
      let s := changed d.old d.new st;
      (s.link 0).inbox = [.rowChange d] ∧ s.row (portOf 0) = d.new ∧ d.new.enabled? = some false ∧
        d.old.enabled? ≠ some false) ∧
    (let d : RowDelta := ⟨.valid (rowOf plan), .invalid .torn⟩;
      (changed d.old d.new .up).row (portOf 0) = d.new ∧ legOf 0 = 0) ∧
    (let d : RowDelta := ⟨.absent, .valid (rowOf plan)⟩;
      let s := changed d.old d.new .off;
      s.row (portOf 0) = d.new ∧ d.old.enabled? ≠ some true ∧ (s.env 0).present = true ∧
        (s.link 0).record.adminDown = false ∧ (s.link 0).record.selfCheck = false) ∧
    (let d : RowDelta := ⟨.valid (rowOf plan), .valid (rowOf { plan with cls := 3 })⟩;
      ∀ st ∈ [LinkState.pairing, .qualify, .off, .held], (changed d.old d.new st).row (portOf 0) = d.new ∧
        d.case (legOf 0) = .cls ∧ ((changed d.old d.new st).link 0).record.state = st) ∧
    (let d : RowDelta := ⟨.valid (rowOf plan), .valid (rowOf { plan with retryLimit := 0 })⟩;
      d.case (legOf 0) = .nothing ∧ d.new.leg (legOf 0) = some { plan with retryLimit := 0 }) := by decide

/-- LOADING waits in its plan stage for the changed rows that links have not taken; the last one taken lets it go on
(R14, R184). -/
def reconcilingState (more : List SeqEvent) : State :=
  let d : RowDelta := ⟨.absent, .valid (rowOf plan)⟩
  let s : State := { changed d.old d.new .off with part := .loading, loading := some .reconciling, dirty := [9] }
  s.putLink 5 { s.link 5 with inbox := more }

theorem witness_RowChangeReconciles_loading :
    ∀ more ∈ [[], [SeqEvent.grant], [.rowChange ⟨.absent, .invalid .torn⟩]],
      let s := reconcilingState more;
      s.loading = some .reconciling ∧ s.part ≠ .idle ∧ s.statusWaiting = false ∧
        (s.link 0).inbox = [.rowChange ⟨.absent, .valid (rowOf plan)⟩] ∧
        ((after (.rowChange 0) s).rowsTaken = true ↔ more ≠ [.rowChange ⟨.absent, .invalid .torn⟩]) := by
  decide +kernel

/-- The last changed row: all 64 links are dirty, the one in the set first, then the link that changed, then the others
in rising number, and the status block entry of LOADING is queued (R14, R184). -/
theorem test_last_row_change_enters_the_links :
    (after (.rowChange 0) (reconcilingState [])).dirty =
      9 :: (allBelow 64).filter (fun l => !decide (l = 9)) ∧
    (statusEntry .loading) ∈ (after (.rowChange 0) (reconcilingState [])).writeQueue := by decide +kernel

/-- With a changed row still waiting LOADING stays in its plan stage, and the changed link alone is dirty. -/
theorem test_row_change_before_the_last :
    let t := after (.rowChange 0) (reconcilingState [.rowChange ⟨.absent, .invalid .torn⟩]);
    t.loading = some .reconciling ∧ t.dirty = [9, 0] := by decide +kernel

/-- A START load whose last row is torn a third time and was read before as it is now: no row has changed, and LOADING
goes on; with another row before, it waits. -/
theorem witness_LoadsApplyAllRowsAtOnce_start :
    ∀ before ∈ [RowState.invalid .torn, .absent],
      let ld : Load := ⟨.start, 0x20000, [31], 2, ((allBelow 32).take 31).map fun p => (p, .invalid .torn), true⟩;
      let s : State := { base with
        part := .loading, loading := some .plan, load := some ld, rows := Bank.fill 32 before };
      s.stalePlanReads = 0 ∧ ld.reading = true ∧ ld.todo = [31] ∧ ld.req = .start ∧ s.part ≠ .idle ∧
        ld.aside.map (·.1) ++ [31] = ld.req.scope.rows ∧
        ((after (.planRowReadDone (some tornBytes)) s).loading = some .reconciling ↔ before = .absent) := by
  decide +kernel

/-- A record in UP of what the expected peer has shown, with one lane pair and a length. -/
def shown (m : Nat) (en : LaneEntry) (tag : Tag) (r : LinkRecord) : LinkRecord :=
  { r with neighbour := some ⟨tag, .whole⟩, length := some m, laneMap := [some en] }

theorem witness_PolicyAndSplitChangesReconcile :
    (let d : RowDelta := ⟨.valid (rowOf plan), halfRow plan plan⟩;
      d.case (legOf 0) = .split ∧ d.case (legOf 1) = .split ∧ (changed d.old d.new .up).row (portOf 0) = d.new ∧
        ((changed d.old d.new .up).env 0).present = true) ∧
    (let d : RowDelta := ⟨halfRow plan plan, .valid (rowOf plan)⟩;
      d.case (legOf 1) = .split ∧ ((changed d.old d.new .up).env 1).present = false) ∧
    (∀ p ∈ [loose, { loose with kind := .none }, { plan with remap := .forbid }],
      let d : RowDelta := ⟨.valid (rowOf plan), .valid (rowOf p)⟩;
      ∀ st ∈ [LinkState.off, .listen, .pairing, .up, .backoff, .held], let s := changed d.old d.new st;
        s.row (portOf 0) = d.new ∧ d.case (legOf 0) = .policy ∧ d.old.leg (legOf 0) = some plan ∧
          d.new.leg (legOf 0) = some p ∧ (s.link 0).record.state = st) ∧
    (let d : RowDelta := ⟨.valid (rowOf { loose with kind := .none }), .valid (rowOf plan)⟩;
      d.case (legOf 0) = .policy) := by decide

/-- A port whose split has changed to WHOLE and back before its leg-1 link, which has a BYE copy outstanding, takes the
first of the two changes (R4, R29). -/
def twiceChanged (adminDown : Bool) (st : LinkState) : State :=
  let h := halfRow plan plan
  let s : State := { base with rows := Bank.fill 32 h }
  s.putLink 1 { inState st [.rowChange ⟨h, .valid (rowOf plan)⟩, .rowChange ⟨.valid (rowOf plan), h⟩] (s.link 1) with
    record := { LinkRecord.fresh 4 with
      state := st, adminDown := adminDown, laneMap := List.replicate 4 (some ⟨0, false⟩) },
    bye := some ⟨.admin, 1⟩, byeTimer := some 5, tx := [.bye .admin] }

theorem witness_PolicyAndSplitChangesReconcile_twice :
    ∀ x ∈ [(true, LinkState.off), (false, .up)], let s := twiceChanged x.1 x.2;
      let d : RowDelta := ⟨halfRow plan plan, .valid (rowOf plan)⟩;
      (s.link 1).inbox.head? = some (.rowChange d) ∧ d.old.split ≠ d.new.split ∧ d.new ≠ .absent ∧
        legOf 1 = 1 ∧ d.new.split = .whole ∧ s.splitOf (portOf 1) = .half ∧ d.case (legOf 1) = .split := by decide

/-- The first change cuts the link off and empties its lists, the second starts it again unless it is admin-down. -/
theorem test_split_changed_twice :
    ∀ x ∈ [(true, LinkState.off), (false, .up)],
      let t := after (.rowChange 1) (twiceChanged x.1 x.2);
      let u := after (.rowChange 1) t;
      (t.link 1).bye = none ∧ (t.link 1).tx = [] ∧ (t.link 1).record.laneMap = List.replicate 4 none ∧
        (t.link 1).record.state = .off ∧ (u.link 1).record.state = (if x.1 then .off else .listen) := by decide +kernel

/-- Records that fail the first, the second and the third check of R30, and one that fails none. -/
theorem witness_PolicyAndSplitChangesReconcile_checks :
    let p : LegPlan := { plan with remap := .forbid };
    let r := LinkRecord.fresh 8;
    (shown 50 ⟨0, false⟩ Tag.no r).failsFirst p .unexpectedNeighbour ∧
    (shown 61 ⟨0, true⟩ peer r).failsFirst p .laneOrder ∧
    (shown 61 ⟨0, false⟩ peer r).failsFirst p .length ∧
    ∀ k, ¬(shown 60 ⟨0, false⟩ peer r).fails p k := by
  have h : ∀ (x i : Lane) (en : LaneEntry), ([some ⟨x, false⟩] : List (Option LaneEntry))[i.val]? = some (some en) →
      i = 0 ∧ en = ⟨x, false⟩ := by
    intro x i en h
    rcases i with ⟨_ | _, hi⟩
    · simp only [List.getElem?_cons_zero, Option.some.injEq] at h
      exact ⟨rfl, h.symm⟩
    · simp at h
  refine ⟨⟨⟨peer, ⟨Tag.no, .whole⟩, rfl, rfl, rfl, by decide⟩, nofun, nofun⟩,
    ⟨⟨rfl, 0, ⟨0, true⟩, rfl, .inr rfl⟩, fun _ => ?_, nofun⟩,
    ⟨⟨50, 10, 61, rfl, rfl, .inr (by decide)⟩, fun _ => ?_, fun _ => ?_⟩, fun k => ?_⟩
  · rintro ⟨w, n, -, hw, hn, hne⟩; cases hw; cases hn; exact hne rfl
  · rintro ⟨w, n, -, hw, hn, hne⟩; cases hw; cases hn; exact hne rfl
  · rintro ⟨-, i, en, hi, he⟩; obtain ⟨rfl, rfl⟩ := h _ _ _ hi; simp at he
  · cases k <;> try exact id
    · rintro ⟨w, n, -, hw, hn, hne⟩; cases hw; cases hn; exact hne rfl
    · rintro ⟨-, i, en, hi, he⟩; obtain ⟨rfl, rfl⟩ := h _ _ _ hi; simp at he
    · rintro ⟨w, tl, m, hw, hm, hne⟩; cases hw; cases hm; omega

/-! ### Orders -/

theorem witness_TakeChoosesHighestThenOldest :
    State.reset.part ≠ .running ∧ 16 ≤ ({ base with contexts := List.replicate 16 (ctx watching) } : State).contexts.length ∧
    (base).posted = [] ∧
    (let s : State := { base with posted := [⟨1, 2, 5⟩, ⟨2, 6, 1⟩, ⟨3, 6, 0xFFFFFFFF⟩] };
      s.part = .running ∧ s.contexts.length < 16 ∧ s.posted ≠ [] ∧
        ∀ q ∈ s.posted, q ≠ ⟨3, 6, 0xFFFFFFFF⟩ → q.prio < 6 ∨
          (q.prio = 6 ∧ 0 < (q.mark - 0xFFFFFFFF).toNat ∧ (q.mark - 0xFFFFFFFF).toNat < 2 ^ 31)) := by decide

/-- Slots of a WATCH of 2 entries whose array lies in the window, and of one whose array does not. -/
def watchSlot : Vector Byte 128 := slot 8 0 (leBytes 8 1 ++ leBytes 8 0x60000 ++ [2, 0, 7])
def farWatchSlot : Vector Byte 128 := slot 8 0 (leBytes 8 1 ++ leBytes 8 0xFFFFF0 ++ [2, 0, 7])

theorem witness_TakenOrdersAreInRange :
    field watchSlot.toList 0 1 = 1 ∧ field watchSlot.toList 5 1 = 3 ∧
    (base).fateOf watchSlot.toList 3 = .run (.watch 1 ⟨true, true, true⟩ 0x60000 2) ∧
    (base).orderAt farWatchSlot.toList = some (.watch 1 ⟨true, true, true⟩ 0xFFFFF0 2) ∧
    field farWatchSlot.toList 0 1 = 1 ∧ field farWatchSlot.toList 5 1 = 3 ∧
    (base).inWindow (0xFFFFF0 : Addr).toNat (16 * 2) = false ∧
    (base).orderAt (slot 1 0 (leBytes 8 0x20040)).toList = some (.adoptPlan 0x20040) ∧
    (base).orderAt (slot 2 0 [1, 63]).toList = some (.refresh (.link 63)) ∧
    (base).orderAt (slot 3 0 (leBytes 8 5)).toList = some (.bringUp 5) ∧
    (base).orderAt (slot 4 0 (leBytes 8 5)).toList = some (.takeDown 5) ∧
    (base).orderAt (slot 5 0 [63]).toList = some (.requalify 63) ∧
    (base).orderAt (slot 6 0 ([31, 0] ++ leBytes 2 16384 ++ leBytes 2 480)).toList = some (.selfCheck 31 16384 480) ∧
    (base).orderAt (slot 7 1 [0xFF, 0xFF, 7, 31, 1]).toList = some (.locate ⟨none, some 7, some 31, some 1, true⟩) ∧
    (base).orderAt (slot 9 1 (leBytes 8 1 ++ [0x40, 0, 0, 0])).toList = some (.await 1 0x40 1 true) ∧
    (base).orderAt (slot 10 1 []).toList = some (.fence true) := by decide

theorem witness_RefusedTakesEndAtOnce :
    (let s := order (.reading false);
      s.seqsOk ∧ ctx (.reading false) ∈ s.contexts ∧ s.part ∈ [PartState.running, .quiescing] ∧
        s.notices &&& Notice.busFault = 0 ∧ s.part ≠ .quiescing) ∧
    (∀ d ∈ (order (.reading false)).contexts, ∀ o left n, d.phase ≠ .active o (.fencing left n)) ∧
    (base).fateOf farWatchSlot.toList (ctx (.reading false)).prio = .refuse .badRegion ∧
    (base).fateOf (slot 11 0 []).toList (ctx (.reading false)).prio = .refuse .badOrder ∧
    (∀ d ∈ (order watching).contexts, d.seq = 7 → d.phase ≠ .reading false) ∧
    (Bank.fill 128 0 : Vector Byte 128)[0] ≠ (1 : Byte) := by
  refine ⟨⟨seqsOk_of (by decide), by simp [order], by decide, by decide, by decide⟩, ?_, by decide, by decide, by decide,
    by decide⟩
  simp [order, ctx]

/-- A take is dropped that two FENCEs wait for, one of them for no other. -/
theorem witness_RefusedTakesEndAtOnce_fences :
    ∀ p ∈ [PartState.running, .quiescing],
      let s : State := { order (.reading false) with
        part := p
        contexts := [ctx (.reading false), ⟨4, 0, 8, .active (.fence true) (.fencing [7] 1)⟩,
          ⟨5, 0, 9, .active (.fence false) (.fencing [7, 6] 2)⟩] };
      (s.contexts.map (·.seq)).Nodup ∧ ctx (.reading false) ∈ s.contexts ∧ (∃ d ∈ s.contexts, d.seq ≠ 7) ∧
        (Bank.fill 128 0 : Vector Byte 128)[0] ≠ (1 : Byte) ∧
        ((after (.slotReadDone 7 (some (Bank.fill 128 0))) s).contexts.map fun c =>
          decide (c.phase = .closing .ok true ∨ c.phase = .closing .ok false)) = [true, false] := by decide +kernel

/-- The last order of a part in QUIESCING is dropped. -/
theorem witness_RefusedTakesEndAtOnce_quiescing :
    ∀ t ∈ [none, some 1], let s : State := { order (.reading false) with part := .quiescing, spacing := t };
      (s.contexts = [ctx (.reading false)] ∧ s.part = .quiescing ∧ s.accepted = true ∧ s.writeQueue = [] ∧
        s.writing = none) ∧
      ({ s with accepted := false } : State).accepted = false := by decide

theorem witness_ActiveOrdersHandOverTheirWork :
    (let s := order (.reading false);
      s.seqsOk ∧ ctx (.reading false) ∈ s.contexts ∧ s.quiescing = false ∧
        ∀ d ∈ s.contexts, ∀ o left n, d.phase ≠ .active o (.fencing left n)) ∧
    (∀ b ∈ [watchSlot, slot 1 0 (leBytes 8 0x20040), slot 2 0 [4], slot 3 0 (leBytes 8 (2 ^ 63)), slot 4 0 (leBytes 8 1),
      slot 5 0 [63], slot 6 0 [0, 0, 1, 0], slot 7 0 [1, 0, 0, 0, 0], slot 9 0 (leBytes 8 1 ++ [1, 0, 255, 255]), slot 10 0 []],
      ∃ o, (order (.reading false)).fateOf b.toList 3 = .run o) ∧
    (let s : State := { base with contexts := [⟨1, 0, 5, .active (.bringUp 1) (.asking [0] 0)⟩, ctx (.reading false)] };
      s.seqsOk ∧ ∃ d ∈ s.contexts, earlier d.seq 7 = true ∧ d.fenceable = true) ∧
    (∀ d ∈ (order (.reading false)).contexts, earlier d.seq 7 = true → d.fenceable = false) := by
  refine ⟨⟨seqsOk_of (by decide), by simp [order], by decide, by simp [order, ctx]⟩, ?_,
    ⟨seqsOk_of (by decide), by decide⟩, by decide⟩
  simp only [List.forall_mem_cons]
  exact ⟨⟨_, rfl⟩, ⟨_, rfl⟩, ⟨_, rfl⟩, ⟨_, rfl⟩, ⟨_, rfl⟩, ⟨_, rfl⟩, ⟨_, rfl⟩, ⟨_, rfl⟩, ⟨_, rfl⟩, ⟨_, rfl⟩, nofun⟩

/-- A WATCH that becomes ACTIVE beside two FENCEs that wait for it, in RUNNING and in QUIESCING. -/
theorem witness_ActiveOrdersHandOverTheirWork_standing :
    ∀ p ∈ [PartState.running, .quiescing],
      let s : State := { order (.reading false) with
        part := p
        contexts := [ctx (.reading false), ⟨4, 0, 8, .active (.fence true) (.fencing [7] 1)⟩,
          ⟨5, 0, 9, .active (.fence false) (.fencing [7, 6] 2)⟩] };
      (s.contexts.map (·.seq)).Nodup ∧ ctx (.reading false) ∈ s.contexts ∧
        s.fateOf watchSlot.toList 3 = .run (.watch 1 ⟨true, true, true⟩ 0x60000 2) ∧
        (s.quiescing = true ↔ p = .quiescing) ∧
        ((after (.slotReadDone 7 (some watchSlot)) s).contexts.map fun c =>
          decide (c.phase = .closing .stopped true)) = [decide (p = .quiescing), false, false] := by
  decide +kernel

theorem witness_LinkAnswersReachTheirOrder :
    (∀ m ∈ [OrdMsg.answer 7 (.acted true), .answer 7 (.state .up), .answer 7 (.state .held)],
      ∀ ph ∈ [Phase.active (.bringUp 1) (.asking [0] 0), .active (.takeDown 3) (.asking [0, 1] 0),
        .active (.requalify 0) .atWork, .active (.selfCheck 0 1 0) (.asking [0] 0), .closing .ok false],
      let s := message ph m;
      (s.contexts.map (·.seq)).Nodup ∧ (s.link 0).toOrder = [m] ∧ s.contexts = [ctx ph]) ∧
    (∀ o p, (ctx (.closing .ok false)).phase ≠ .active o p) ∧ (∃ k ∈ ([0, 1] : List LinkId), k ≠ 0) := by
  refine ⟨by decide, nofun, by decide⟩

theorem witness_OrdersEndByReports :
    (let s := message (.active (.await 1 0x40 50 false) (.viewing [0] [] (some 1))) (.answer 7 (.state .up));
      (s.contexts.map (·.seq)).Nodup ∧ (s.link 0).toOrder = [.answer 7 (.state .up)] ∧ s.contexts.length = 1) ∧
    (let s := message (.active (.requalify 0) .atWork) (.requalDone 7 ⟨[], none, none, none, none⟩);
      (s.contexts.map (·.seq)).Nodup ∧ (s.link 0).toOrder = [.requalDone 7 ⟨[], none, none, none, none⟩]) ∧
    (∀ o ∈ [Order.adoptPlan 0x20000, .refresh .all], ∀ ok ∈ [true, false],
      let s : State := { order (.active o .atWork) with loadReports := [⟨7, ok, some .all, 3, 1⟩] };
      (s.contexts.map (·.seq)).Nodup ∧ s.loadReports = [⟨7, ok, some .all, 3, 1⟩] ∧
        s.contexts = [ctx (.active o .atWork)]) ∧
    (order awaiting).contexts = [ctx awaiting] := by decide

theorem witness_WatchesRecordEvents :
    (∀ n ∈ [0, 1], ∀ reading ∈ [[], [7], [6]],
      ∀ ev ∈ [LinkEvt.mk (.state .up .qualify) 4 reading, ⟨.discrepancy .length 60, 4, reading⟩,
        ⟨.verdict .pass 300, 4, reading⟩],
      let s := message (.active (.watch 1 ⟨true, true, true⟩ 0x60000 2) (.written n)) (.event ev);
      (s.contexts.map (·.seq)).Nodup ∧ (s.link 0).toOrder = [.event ev] ∧
        ((1 : Addr).getLsbD (0 : LinkId).val && (WatchSet.mk true true true).selects ev.body) = true ∧
        ((ctx (.reading false)).seq ∈ ev.reading ↔ reading = [7])) ∧
    ((2 : Addr).getLsbD (0 : LinkId).val && (WatchSet.mk true true true).selects (.state .up .qualify)) = false ∧
    (let s := message awaiting (.event ⟨.state .up .qualify, 4, []⟩);
      s.contexts = [ctx awaiting] ∧ (1 : Addr).getLsbD (0 : LinkId).val = true) := by decide

/-- A STATE event, one of another kind, a link inside and outside the mask, one still waited for. -/
theorem witness_WatchesRecordEvents_await :
    (∀ m waiting ev,
      let ph : Phase := .active (.await m 0x40 50 true) (.viewing waiting [(0, .listen)] (some 50000000));
      let s := message ph (.event ⟨ev, 4, []⟩);
      (s.contexts.map (·.seq)).Nodup ∧ s.contexts = [ctx ph] ∧ (s.link 0).toOrder = [.event ⟨ev, 4, []⟩]) ∧
    ((2 : Addr).getLsbD (0 : LinkId).val = false ∧ (3 : Addr).getLsbD (0 : LinkId).val = true) ∧
    ((0 : LinkId) ∉ [(1 : LinkId)] ∧ (0 : LinkId) ∈ [(0 : LinkId)]) ∧
    (∀ entered left, EventBody.discrepancy .length 60 ≠ .state entered left) :=
  ⟨fun _ _ _ => ⟨List.nodup_singleton _, rfl, rfl⟩, by decide, by decide, nofun⟩

/-- An event that happens while a WATCH is in READING is not offered to it, though it arrives when it is ACTIVE; the
next event is (R176). -/
theorem test_watch_misses_events_of_reading :
    (let held := inState .backoff [] ((order (.reading false)).link 0);
      let waiting := (order (.reading false)).putLink 0 { held with timers := { held.timers with backoff := some 1 } };
      let s := after (.slotReadDone 7 (some watchSlot)) (after (.backoffExpiry 0) waiting);
      let later : OrdMsg := .event ⟨.state .up .qualify, 4, []⟩;
      (s.link 0).toOrder ≠ [] ∧ (after (.linkEvent 0) s).writeQueue = s.writeQueue ∧
        (after (.linkEvent 0) (s.putLink 0 { s.link 0 with toOrder := [later] })).writeQueue ≠ s.writeQueue) := by
  decide

/-! ### The Record Writer and the reports -/

/-- A write queue entry with one step in the window. -/
def entry (k : QKind) : QEntry := ⟨k, [⟨0x10100, [3, 1, 0, 0]⟩]⟩

/-- The head of the write queue is being written. -/
def landing (k : QKind) : State :=
  { base with writeQueue := [entry k], writing := some (.queue (entry k).steps) }

/-- An anchor whose window ends below the link records. -/
def narrow : Anchor := { anchor with winHigh := 0x20000 }

theorem witness_WriterTakesItsSourcesInTurn :
    (landing .taken).writing ≠ none ∧ State.reset.part = .idle ∧ State.reset.accepted = false ∧
    ((base).dirty = [] ∧ (base).writeQueue = []) ∧
    (∀ a ∈ [anchor, narrow], let s : State := { base with anchor := some a, dirty := [5, 6] };
      s.writing = none ∧ s.part ≠ .idle ∧ s.part ≠ .faulted ∧ s.accepted = true ∧ s.dirty = [5, 6] ∧
        s.writeQueue = [] ∧ s.inWindow (s.recordAddr 5) 2 = decide (a = anchor) ∧ s.notices &&& Notice.busFault = 0) ∧
    (∀ k ∈ [QKind.taken, .status .plain], ∀ a ∈ [anchor, narrow],
      let s : State := { base with anchor := some a, writeQueue := [⟨k, [⟨0x1FFFE, [1, 2, 3]⟩]⟩] };
      s.writing = none ∧ s.dirty = [] ∧ s.entrySteps ⟨k, [⟨0x1FFFE, [1, 2, 3]⟩]⟩ ≠ [] ∧
        (s.entrySteps ⟨k, [⟨0x1FFFE, [1, 2, 3]⟩]⟩).all (fun w => s.inWindow w.addr w.bytes.length) = decide (a = anchor)) := by
  decide

theorem witness_RecordWritesLandInThreeSteps :
    (∀ k a g b x c i e, (base).writing ≠ some (.record k a g b x c i e)) ∧
    (∀ i : Fin 3, ∀ ended ∈ [true, false],
      let s : State := { base with writing := some (.record 63 0x317A0 4 (zeros 94) .up false i ended) };
      s.writing = some (.record 63 0x317A0 4 (zeros 94) .up false i ended) ∧ s.part ≠ .loading ∧
        s.inWindow (0x317A0 + 2) (zeros 94).length = true ∧ s.inWindow 0x317A0 2 = true ∧
        s.part ∈ [PartState.loading, .running, .quiescing] ∧ s.notices &&& Notice.busFault = 0) := by
  refine ⟨fun _ _ _ _ _ _ _ _ h => by simp [base, State.reset] at h, by decide⟩

/-- The window ends after the first step of a write, the second step is outside it; and the last link that LOADING
awaits, with its other write landed. -/
theorem witness_RecordWritesLandInThreeSteps_window_and_loading :
    (∀ i : Fin 3, let s : State := { base with
        anchor := some { anchor with winHigh := 0x31000 },
        writing := some (.record 63 0x30FF0 4 (zeros 94) .up false i false) };
      s.inWindow (0x30FF0 + 2) (zeros 94).length = false ∧ s.part ∈ [PartState.loading, .running, .quiescing]) ∧
    (let s : State := { base with writing := some (.record 63 0x31000 4 (zeros 94) .up false 1 false), anchor := some narrow };
      s.inWindow 0x31000 2 = false) ∧
    (∀ ls ∈ [[63], [63, 5]], ∀ landed ∈ [true, false], let s : State := { base with
        part := .loading, loading := some (.completing ls landed),
        writing := some (.record 63 0x317A0 4 (zeros 94) .up true 2 false) };
      s.part = .loading ∧ s.loading = some (.completing ls landed) ∧ s.writeQueue = [] ∧ s.accepted = true) ∧
    (∃ q ∈ ({ base with writeQueue := [⟨.clear, []⟩] } : State).writeQueue, q.kind = .clear) := by decide

/-- The part is RUNNING with the last of them, and the status block is due (R184, R193). -/
theorem test_last_record_write_ends_loading :
    (after (.recordWriteStepDone false) { base with
      part := .loading, loading := some (.completing [63] true),
      writing := some (.record 63 0x317A0 4 (zeros 94) .up true 2 false) }).part = .running := by decide

theorem witness_QueueEntriesLandWhole :
    (∀ k ∈ [QKind.taken, .result, .watch, .collapse, .release, .clear, .alloc, .status .plain, .status .idle],
      (landing k).writing = some (.queue (entry k).steps) ∧ (landing k).writeQueue = [entry k] ∧
        (landing k).part = .running ∧ (∀ w ∈ (entry k).steps, (landing k).inWindow w.addr w.bytes.length = true) ∧
        (entry k).steps = [] ++ ⟨0x10100, [3, 1, 0, 0]⟩ :: [] ∧ (landing k).notices &&& Notice.busFault = 0) ∧
    (let s : State := { landing (.status .loading) with part := .loading, loading := some (.completing [] false) };
      s.writeQueue = [⟨.status .loading, (entry .taken).steps⟩] ∧ s.part = .loading ∧
        s.loading = some (.completing [] false)) ∧
    (let s : State := { landing (.status .idle) with part := .quiescing };
      s.writeQueue = [⟨.status .idle, (entry .taken).steps⟩] ∧ s.part = .quiescing ∧ s.contexts = [] ∧ s.loading = none) ∧
    (let s : State := { base with
        anchor := some narrow, writing := some (.queue [⟨0x1FF00, [1]⟩, ⟨0x20000, [2]⟩]),
        writeQueue := [entry .taken, statusEntry] };
      s.inWindow 0x1FF00 1 = true ∧ s.inWindow 0x20000 1 = false ∧ s.part = .running) ∧
    (∀ rest ∈ [[], [entry .taken, statusEntry]], let s : State := { base with
        writeQueue := statusEntry .loading :: rest, writing := some (.queue [⟨0x50000, [1, 0]⟩]) };
      s.writeQueue = statusEntry .loading :: rest ∧ (statusEntry .loading).kind = .status .loading) ∧
    ({ base with writing := some (.finishing ⟨0x50000, [1]⟩) } : State).writing = some (.finishing ⟨0x50000, [1]⟩) ∧
    (base).writing = none := by
  decide

/-- The last clearing write of LOADING lands, and one that is not the last; the last write of a part in QUIESCING lands,
and one of a part that is FAULTED. -/
theorem witness_QueueEntriesLandWhole_parts :
    (∀ rest ∈ [[], [entry .clear]], let s : State := { landing .clear with
        part := .loading, loading := some (.completing [] true), writeQueue := entry .clear :: rest };
      s.writing = some (.queue (entry .clear).steps) ∧ s.part = .loading ∧
        ((∃ x ∈ rest, x.kind = .clear) ↔ rest ≠ []) ∧ ∀ w ∈ (entry .clear).steps, s.inWindow w.addr w.bytes.length = true) ∧
    (∀ yes ∈ [true, false], ∀ k ∈ [QKind.watch, .done 2 (some 7) false],
      let s : State := { landing k with part := .quiescing, accepted := yes };
      s.part = .quiescing ∧ s.contexts = [] ∧ s.writeQueue = [entry k] ∧ (entry k).kind ≠ .status .idle ∧
        ∀ w ∈ (entry k).steps, s.inWindow w.addr w.bytes.length = true) ∧
    (∀ ls ∈ [[], [5]], let s : State := { landing (.status .loading) with
        part := .loading, loading := some (.completing ls false) };
      s.loading = some (.completing ls false) ∧ s.writeQueue = [⟨.status .loading, (entry .taken).steps⟩]) ∧
    (let s : State := { landing .taken with part := .faulted, resume := some .running, notices := Notice.busFault };
      s.part = .faulted ∧ s.notices &&& Notice.busFault ≠ 0) ∧
    (let s : State := { landing (.status .loading) with part := .quiescing };
      (entry (.status .loading)).kind = .status .loading ∧ s.loading = none) := by decide

/-- The last write of a part in QUIESCING queues the status block entry that carries IDLE (R185). -/
theorem test_last_write_queues_idle :
    (after (.queueWriteDone none) { landing .watch with part := .quiescing }).writeQueue = [⟨.status .idle, []⟩] := by
  decide

/-- The last DONE word of a part in QUIESCING queues the status block entry of its count first (R185, R193). -/
theorem test_last_done_queues_its_count :
    (after (.queueWriteDone none)
      { landing (.done 2 (some 7) false) with part := .quiescing, contexts := [ctx (.closing .ok false)] }).writeQueue =
      [⟨.status .plain, []⟩] := by decide

theorem witness_DoneWordsFreeTheirContext :
    (∀ ref ∈ [none, some 7], ∀ co ∈ [0, 1],
      let s : State := { landing (.done 2 ref false) with
        coalesce := co,
        contexts := [ctx (.closing .ok false), ⟨4, 0, 8, .active (.fence true) (.fencing [7] 1)⟩,
          ⟨5, 0, 9, .active (.fence false) (.fencing [7, 6] 2)⟩] };
      s.writeQueue = [⟨.done 2 ref false, (entry .taken).steps⟩] ∧ s.part = .running ∧ s.anchor = some anchor ∧
        (s.contexts.map (·.seq)).Nodup ∧ (anchor.trigger ≤ s.coalesce + 1 ↔ co = 1)) ∧
    anchor.holdoff ≠ 0 ∧ { anchor with holdoff := 0 }.holdoff = 0 ∧
    ∀ w ∈ (entry .taken).steps, (landing .taken).inWindow w.addr w.bytes.length = true := by
  refine ⟨fun ref _ co h => ⟨rfl, rfl, rfl, (by decide : ([7, 8, 9] : List Word).Nodup), ?_⟩, by decide, rfl, by decide⟩
  simp only [List.mem_cons, List.not_mem_nil, or_false] at h
  rcases h with rfl | rfl
  · exact (by decide : (2 : Nat) ≤ 0 + 1 ↔ 0 = 1)
  · exact (by decide : (2 : Nat) ≤ 1 + 1 ↔ 1 = 1)

/-- A LENGTH discrepancy on its way from link 0. -/
def length60 : Discrepancy := ⟨.length, 60, none, none, none, 9⟩

/-- The base state with it, and with a log. -/
def logging (log : List (Option HeldRec)) : State :=
  { at0 (fun lk => { lk with toLog := [length60] }) with log := log }

/-- The record of another link. -/
def other : HeldRec := { held with link := 9 }

theorem witness_DiscrepanciesAreLogged :
    (let s : State := { logging [] with part := .idle };
      (s.link 0).toLog = [length60] ∧ s.part = .idle) ∧
    (let s := logging [some other, some held];
      (s.link 0).toLog = [length60] ∧ s.part ≠ .idle ∧ s.accepted = true ∧ s.log[1]? = some (some held) ∧ held.link = 0 ∧
        other.link ≠ 0) ∧
    (let s := logging [some other, none, none];
      s.log[1]? = some none ∧ (∀ k < 1, s.log[k]? ≠ some none) ∧ ∀ x ∈ s.log, x = some other ∨ x = none) ∧
    (none ∉ (logging [some other, some other]).log) := by decide

theorem witness_ReportingTimersExpire :
    (base).holdoff = none ∧ ({ base with holdoff := some 1, coalesce := 2 } : State).holdoff ≠ none ∧
    (base).spacing = none ∧
    (∀ due ∈ [true, false], ∀ q ∈ [[], [entry (.status .plain)]],
      let s : State := { base with spacing := some 1, statusDue := due, writeQueue := q };
      s.spacing ≠ none ∧ s.statusDue = due ∧ s.accepted = true ∧ s.statusWaiting = !q.isEmpty) := by decide

/-! ### The Page Link -/

/-- An arrival with good framing. -/
def arrives (b : PageBody) : Arrival := ⟨true, false, pageBytes peer b, 0, 0⟩

/-- A link whose pilot lane is 0 and which observes the peer there. -/
def piloted (lk : Link) : Link :=
  { lk with record := { lk.record with pilot := some 0 }, obs := lk.obs.set 0 (some ⟨peer, .whole, 0, false, 0⟩) }

/-- Receive FIFOs at their limit and one below it. -/
def fifo (n : Nat) (lk : Link) : Link := { lk with rx := List.replicate n (.untagged ⟨peer, .keepalive⟩) }

theorem witness_ArrivedPagesAreRouted :
    (nearLane ((base).splitOf 0) 0 = (legOf 0, 0) ∧ portOf 0 = 0 ∧ nearLane ((base).splitOf 31) 7 = (legOf 62, 7)) ∧
    nearLane .half 3 = (0, 3) ∧ nearLane .half 4 = (1, 0) ∧
    ((base).link 0).record.state.quiet = true ∧ ((at0 (inState .listen)).link 0).onPilot 0 = false ∧
    (∀ n ∈ [4, 5, 7, 8], let lk := (at0 fun lk => fifo n (piloted (inState .up [] lk))).link 0;
      lk.record.state.conversing = true ∧ lk.record.pilot = some 0 ∧ lk.rx.length = n) ∧
    (∀ flow ∈ [none, some FlowPage.resume], let lk := (at0 fun lk => { lk with owedFlow := flow }).link 0;
      lk.owedFlow = flow ∧ lk.holdForce = none) ∧
    (∀ b ∈ [PageBody.keepalive, .hold, .resume, .echoReq 2, .echoReply 2 40, .qualResult .pass 480],
      judgePage true (arrives b).bytes = .ok ⟨peer, b⟩) ∧
    judgePage false [] = .error .frame := by decide +kernel

theorem witness_PagesAreJudged :
    (arrives .keepalive).bytes.length = 16 ∧
    field (arrives .keepalive).bytes 14 2 = (crc ((arrives .keepalive).bytes.take 14)).toNat ∧
    (let bs := (arrives .keepalive).bytes.set 15 0x5A;
      bs.length = 16 ∧ field bs 14 2 ≠ (crc (bs.take 14)).toNat) ∧
    (let bs := pageBytes Tag.no .keepalive;
      bs.length = 16 ∧ field bs 14 2 = (crc (bs.take 14)).toNat ∧ judgePage true bs = .error .frame) ∧
    (peer.chassis ≠ 0 ∧ (PageBody.qualResult .fail 480).inRange ∧ (PageBody.echoReply 2 65535).inRange ∧
      (PageBody.ident .half .specific .enforce peer 16384 65535).inRange) := by
  refine ⟨by decide +kernel, by decide +kernel, by decide +kernel, by decide +kernel, by decide, ?_, ?_, ?_⟩ <;>
    simp [PageBody.inRange, peer]

theorem test_pages_are_judged :
    judgePage false [] = .error .frame ∧
    (∀ b ∈ [PageBody.hold, .resume, .echoReq 2, .echoReply 2 65535, .trainReady, .trained, .requal, .keepalive,
      .bye .refused, .qualReady 0, .qualResult .fail 480, .ident .half .specific .enforce peer 16384 65535, .beacon .half 7],
      judgePage true (arrives b).bytes = .ok ⟨peer, b⟩) := by decide +kernel

theorem witness_BeaconsAreObserved :
    judgePage true (arrives (.beacon .whole 0)).bytes = .ok ⟨peer, .beacon .whole 0⟩ ∧
    (∀ st ∈ [LinkState.listen, .pairing, .up], ((at0 (inState st)).link 0).record.state = st ∧
      ((at0 (inState st)).legPlan 0).kind ≠ .none ∧ ((at0 (inState st)).link 0).obs[(0 : Lane)] = none ∧
      (0 : Lane).val < ((at0 (inState st)).link 0).record.laneMap.length ∧
      ((at0 (inState st)).link 0).record.laneMap.length ≤ 8) ∧
    ((at0 (inState .listen) { loose with kind := .none }).legPlan 0).kind = .none ∧
    (((at0 fun lk => piloted (inState .pairing [] lk)).link 0).obs[(0 : Lane)]).map (·.tag) = some peer ∧
    (mapFault ⟨17, 2, 0, 0⟩ .whole 8 [(0, ⟨peer, .whole, 0, false, 0⟩)] = none ∧
      mapFault peer .whole 8 [(0, ⟨peer, .whole, 0, false, 0⟩)] = some .loopedToSelf) := by decide +kernel

/-- One set of observations for each check of R96, and a leg with every near lane observed. -/
theorem witness_BeaconsAreObserved_checks :
    mapFault ⟨17, 2, 0, 0⟩ .whole 8 [(0, ⟨peer, .half, 0, false, 0⟩)] = some .splitMismatch ∧
    mapFault ⟨17, 2, 0, 0⟩ .whole 8 [(0, ⟨peer, .whole, 0, false, 0⟩), (1, ⟨{ peer with leg := 1 }, .whole, 1, false, 0⟩)] =
      some .splitMismatch ∧
    mapFault ⟨17, 2, 0, 0⟩ .whole 8 [(0, ⟨peer, .whole, 0, false, 0⟩), (1, ⟨{ peer with port := 2 }, .whole, 0, false, 0⟩)] =
      some .mixedCable ∧
    mapFault ⟨17, 2, 0, 0⟩ .whole 8 [(0, ⟨peer, .whole, 1, false, 0⟩), (1, ⟨peer, .whole, 1, true, 0⟩)] =
      some .laneConflict ∧
    mapFault ⟨17, 2, 0, 0⟩ .half 4 [(0, ⟨peer, .half, 4, false, 0⟩)] = some .laneConflict ∧
    (let obs : Vector (Option Obs) 8 := Bank.of 8 fun i => some ⟨peer, .whole, ⟨i % 8, by omega⟩, false, 0⟩;
      ((base).env 0).width ≤ 8 ∧ evaluateMap ((base).env 0) obs 3 = .mapOutcome true ∧
        evaluateMap ((base).env 0) (obs.set 7 none) 3 = .mapOutcome false) := by decide

theorem witness_PageProcessorTakesTurns :
    (∀ l, ((base).link l).rx = []) ∧
    (∀ e ∈ [RxEntry.tagged .frame [], .untagged ⟨peer, .keepalive⟩],
      let s : State := { at0 (fun lk => { lk with rx := [e] }) with lastServed := 0 };
      (s.link 0).rx = [e] ∧ ∀ k, (s.link k).rx ≠ [] → ((0 : LinkId) - (s.lastServed + 1)).val ≤ (k - (s.lastServed + 1)).val) ∧
    (∀ n ∈ [3, 4], ∀ force ∈ [none, some 1], ∀ flow ∈ [none, some FlowPage.hold],
      let lk := (at0 fun lk => { fifo n lk with holdForce := force, owedFlow := flow }).link 0;
      lk.rx = .untagged ⟨peer, .keepalive⟩ :: (lk.rx.drop 1) ∧ ((lk.rx.drop 1).length = 2 ↔ n = 3) ∧
        lk.holdForce = force ∧ lk.owedFlow = flow) := by
  decide

/-- A link with a page in progress. -/
def sends (x : Sent) (lk : Link) : Link := { lk with sending := some ⟨x, [], true⟩ }

theorem witness_TransmitterChoosesAndEnds :
    ((at0 (sends (.flow .hold))).link 0).sending ≠ none ∧ (State.reset.ownTag 0).chassis = 0 ∧
    (((base).link 0).sending = none ∧ ((base).ownTag 0).chassis ≠ 0 ∧ ((base).link 0).tx = [] ∧
      ((base).link 0).runDue = false) ∧
    ((at0 fun lk => { lk with owedFlow := some .resume }).link 0).owedFlow = some .resume ∧
    (((at0 fun lk => { lk with owedEcho := some ⟨2, 0⟩ }).link 0).owedFlow = none ∧
      ((at0 fun lk => { lk with owedEcho := some ⟨2, 0⟩ }).link 0).owedEcho = some ⟨2, 0⟩) ∧
    (let lk := (at0 fun lk => { lk with tx := [.keepalive], heldBy := some 1 }).link 0;
      lk.owedFlow = none ∧ lk.owedEcho = none ∧ lk.heldBy ≠ none ∧ lk.tx = [.keepalive]) ∧
    (∀ x ∈ [Sent.flow .hold, .flow .resume, .item (.echoReq 2)],
      ((at0 (sends x)).link 0).runDue = false ∧ ((at0 (sends x)).link 0).sending = some ⟨x, [], true⟩) ∧
    (let lk := (at0 fun lk => { sends (.item (.echoReq 2)) lk with echo := ⟨true, Bank.fill 3 .waiting, 3, none, []⟩ }).link 0;
      lk.echo.running = true ∧ lk.echo.samples[(2 : Fin 3)] = .waiting) ∧
    (∀ b ∈ [true, false],
      (let s := at0 fun lk => { sends (.item .trainReady) (paired .verify [] lk) with
          stage := { verifyPassed := true, trainReadyRecv := b } };
        (s.link 0).sending = some ⟨.item .trainReady, [], true⟩ ∧ (s.link 0).record.state = .verify ∧
          (s.link 0).stage.verifyPassed = true ∧ (s.link 0).stage.trainReadyRecv = b) ∧
      (let s := at0 fun lk => { sends (.item .trained) (paired .train [] lk) with
          stage := { trainedRecv := b }, record := { (paired .train [] lk).record with deskew := [some 0, some 255] } };
        (s.link 0).sending = some ⟨.item .trained, [], true⟩ ∧ (s.link 0).record.state = .train ∧
          (s.link 0).record.deskew ≠ [] ∧ (∀ x ∈ (s.link 0).record.deskew, x ≠ none) ∧
          (s.link 0).stage.trainedRecv = b)) := by decide

theorem witness_PageTimersPaceTheLink :
    (let s := at0 fun lk => { inState .listen [] lk with timers := { announce := some 1, keepalive := some 1, burst := some 1 } };
      (s.link 0).timers.announce ≠ none ∧ (s.link 0).timers.keepalive ≠ none ∧ (s.link 0).tx = [] ∧
        (s.link 0).heldBy = none) ∧
    (((base).link 0).timers.announce = none ∧ ((base).link 0).timers.keepalive = none) ∧
    ((at0 fun lk => { lk with heldBy := some 1 }).link 0).heldBy ≠ none ∧
    (∀ n ∈ [1, 2], let lk := (at0 fun lk => { lk with bye := some ⟨.plan, n⟩, byeTimer := some 1 }).link 0;
      lk.byeTimer ≠ none ∧ lk.tx.length < 4 ∧ lk.bye = some ⟨.plan, n⟩) ∧
    (∀ n ∈ [5, 6], let lk := (at0 fun lk => { fifo n lk with holdForce := some 1 }).link 0;
      lk.holdForce ≠ none ∧ (6 ≤ lk.rx.length ↔ n = 6)) ∧
    (let lk := (at0 fun lk => { inState .qualify [] lk with
        stage := { byRequalify := true, granted := true, run := .ended }, ownSeed := some 5,
        record := { (inState .qualify [] lk).record with localV := some .pass } }).link 0;
      lk.record.state = .qualify ∧ lk.record.peerV = none ∧ lk.stage.requalAnswered = false ∧
        lk.announcePages ((base).env 0) = [.requal, .qualResult .pass 0]) ∧
    (∀ ds ∈ [[], [some 3, none], [some 3]], let lk := (at0 fun lk => { inState .train [] lk with
        record := { (inState .train [] lk).record with deskew := ds } }).link 0;
      lk.record.state = .train ∧ lk.record.deskew = ds) := by decide

/-! ### The Link Sequencer -/

theorem witness_QuietLinksGoOn :
    (∀ heard ∈ [true, false],
      let s := at0 (fun lk => { inState .listen [.quietBeacon 7 peer 5] lk with stage := { heard := heard } })
        { loose with kind := .none };
      (s.link 0).inbox = [.quietBeacon 7 peer 5] ∧ (s.link 0).record.state = .listen ∧ (s.legPlan 0).kind = .none ∧
        (s.link 0).stage.heard = heard) ∧
    (let s := at0 fun lk => { inState .backoff [] lk with timers := { backoff := some 1 } };
      (s.link 0).timers.backoff ≠ none ∧ (s.link 0).record.state = .backoff) ∧
    (let s := at0 fun lk => { inState .listen [.firstBeacon 0] lk with
        obs := lk.obs.set 0 (some ⟨peer, .whole, 0, false, 0⟩) };
      (s.link 0).inbox = [.firstBeacon 0] ∧ (s.link 0).record.state = .listen ∧ (s.legPlan 0).kind ≠ .none) ∧
    (let s := at0 (inState .listen [.firstBeacon 0]) { loose with kind := .none };
      (s.link 0).inbox = [.firstBeacon 0] ∧ (s.link 0).record.state = .listen ∧ (s.legPlan 0).kind = .none) ∧
    ((at0 (inState .held [.firstBeacon 0])).link 0).record.state ≠ .listen := by decide

/-- All five stage timers run. -/
def allTimers : Timers :=
  { pairing := some 1, verify := some 1, train := some 1, qualifyWait := some 1, peerResult := some 1, backoff := some 1,
    peerSilent := some 1 }

theorem witness_StageExpiriesAreRetryable :
    (∀ st ∈ [LinkState.pairing, .verify, .train, .qualify], ∀ n ∈ [2, 3],
      let s := at0 fun lk => { inState st [] lk with
        timers := allTimers, obs := Bank.fill 8 (some ⟨peer, .whole, 0, false, 0⟩),
        record := { (inState st [] lk).record with retries := n } };
      (s.link 0).record.state = st ∧ (s.link 0).timers = allTimers ∧ (s.link 0).record.retries = n ∧
        (s.legPlan 0).retryLimit = 3 ∧ ∀ i : Lane, i.val < (s.env 0).width → (s.link 0).obs[i] ≠ none) ∧
    ((base).link 0).timers = {} ∧
    (let s := at0 fun lk => { piloted (inState .pairing [] lk) with timers := allTimers };
      (s.link 0).timers.pairing ≠ none ∧ (s.link 0).record.state = .pairing ∧ (1 : Lane).val < (s.env 0).width ∧
        (s.link 0).obs[(1 : Lane)] = none ∧ ∀ k : Lane, k < 1 → (s.link 0).obs[k] ≠ none) := by decide

theorem witness_UpLinksAreLost :
    (portOf 0 = 0 ∧ nearLane ((base).splitOf 0) 1 = (legOf 0, 1)) ∧
    (∀ st ∈ [LinkState.up, .pairing, .verify, .train, .qualify], ∀ n ∈ [99, 100],
      let s := at0 fun lk => { piloted (inState st [] lk) with timers := allTimers, burstCount := n, burstLimit := 100 };
      (s.link 0).record.state = st ∧ (s.link 0).timers.peerSilent ≠ none ∧ (s.link 0).holdForce = none ∧
        ((s.link 0).burstLimit < min 65536 ((s.link 0).burstCount + 1) ↔ n = 100) ∧
        (s.link 0).obs[(0 : Lane)] ≠ none ∧ (s.link 0).obs[(1 : Lane)] = none) ∧
    ((at0 fun lk => { lk with holdForce := some 1 }).link 0).holdForce ≠ none ∧
    ((base).link 0).record.state.conversing = false := by decide

/-- The own tag of link 0 under the test anchor, and the IDENT of the peer that names it. -/
def own : Tag := ⟨17, 2, 0, 0⟩
def ident (k : ExpectKind) (t : Tag) (sp : Split) (sender : Tag := peer) : SeqEvent :=
  .page ⟨sender, .ident sp k .enforce t 16 100⟩

theorem witness_MapReportsAndIdentAreActedOn :
    (let s := at0 (inState .pairing [.mapFinding ⟨.mixedCable, 7, peer, 5⟩]);
      (s.link 0).record.state = .pairing ∧ (s.link 0).inbox = [.mapFinding ⟨.mixedCable, 7, peer, 5⟩] ∧
        DiscKind.mixedCable ≠ .heldDown) ∧
    (∀ b ∈ [true, false], let s := at0 (paired .pairing [.mapOutcome b]);
      (s.link 0).record.state = .pairing ∧ (s.link 0).inbox = [.mapOutcome b] ∧
        (s.link 0).record.neighbour = some ⟨peer, .whole⟩ ∧ (s.env 0).expected = some peer ∧ (s.legPlan 0).remap = .allow) ∧
    ((at0 (inState .pairing)).link 0).record.neighbour = none ∧
    (∀ strict ∈ [Strictness.enforce, .report],
      let s := at0 (paired .pairing [.mapOutcome true]) { plan with tag := some own, strict := strict };
      (s.env 0).expected = some own ∧ own ≠ peer ∧ (s.legPlan 0).strict = strict) ∧
    (∀ ev ∈ [ident .specific own .whole, ident .specific peer .whole, ident .any Tag.no .whole, ident .any Tag.no .half,
      ident .any Tag.no .whole own], ∀ done ∈ [true, false],
      let s := at0 (fun lk => { piloted (inState .pairing [ev] lk) with stage := { mapComplete := done } }) loose;
      (s.link 0).record.state = .pairing ∧ (s.link 0).inbox = [ev] ∧ (s.link 0).pilotTag = some peer ∧ peer ≠ own ∧
        s.ownTag 0 = own ∧ s.splitOf (portOf 0) = .whole ∧ (s.link 0).stage.mapComplete = done ∧
        (s.link 0).record.farExpect = none ∧ (s.env 0).expected = none ∧ (s.legPlan 0).remap = .allow) ∧
    (let s := at0 fun lk => { inState .pairing [ident .any Tag.no .whole own] lk with
        record := { (inState .pairing [] lk).record with pilot := some 0 },
        obs := lk.obs.set 0 (some ⟨own, .whole, 0, false, 0⟩) };
      (s.link 0).pilotTag = some own ∧ own = s.ownTag 0) := by decide

/-- IDENT in VERIFY, new, known and of another split; and a lane map that remap FORBID refuses. -/
theorem witness_MapReportsAndIdentAreActedOn_verify :
    (∀ ev ∈ [ident .specific own .whole, ident .specific peer .whole, ident .any Tag.no .half],
      ∀ far ∈ [none, some (⟨.specific, some peer⟩ : FarExpect)],
      let s := at0 (fun lk => { paired .verify [ev] lk with record := { (paired .verify [] lk).record with farExpect := far } });
      (s.link 0).record.state = .verify ∧ (s.link 0).inbox = [ev] ∧ (s.link 0).neighbourTag = some peer ∧
        s.ownTag 0 = own ∧ s.splitOf (portOf 0) = .whole ∧ (s.link 0).record.farExpect = far) ∧
    (∀ en ∈ [LaneEntry.mk 1 false, ⟨2, false⟩, ⟨1, true⟩],
      let s := at0 (fun lk => { paired .pairing [.mapOutcome true] lk with
        record := { (paired .pairing [] lk).record with laneMap := [some ⟨0, false⟩, some en] } }) { plan with remap := .forbid };
      (s.link 0).record.laneMap[(0 : Lane).val]? = some (some ⟨0, false⟩) ∧
        (s.link 0).record.laneMap[(1 : Lane).val]? = some (some en) ∧ (s.legPlan 0).remap = .forbid ∧
        (s.env 0).expected = some peer ∧ (s.link 0).record.neighbour = some ⟨peer, .whole⟩) := by decide

theorem witness_TrainingPagesAdvanceTheLink :
    (∀ ev ∈ [PageBody.trainReady, .trained], ∀ st ∈ [LinkState.verify, .train, .qualify], ∀ b ∈ [true, false],
      let s := at0 fun lk => { paired st [.page ⟨peer, ev⟩] lk with
        stage := { verifyPassed := true, trainReadySent := b, trainedSent := b } };
      (s.link 0).inbox = [.page ⟨peer, ev⟩] ∧ (s.link 0).neighbourTag = some peer ∧ (s.link 0).record.state = st ∧
        (s.link 0).stage.trainReadySent = b ∧ (s.link 0).stage.trainedSent = b ∧ (s.link 0).tx.length < 4) ∧
    ((base).link 0).neighbourTag ≠ some peer := by decide

theorem witness_VerdictsDecideTheLink :
    (∀ a ∈ [Verdict.pass, .marginal, .fail], ∀ b ∈ [Verdict.pass, .marginal, .fail],
      let s := at0 fun lk => { paired .qualify [.page ⟨peer, .qualResult b 300⟩] lk with
        stage := { run := .ended },
        record := { (paired .qualify [] lk).record with
          localV := some a, legLmi := some 300, laneLmis := [300, 480].map some } };
      let r := at0 fun lk => { paired .qualify [.runResult [300, 480] 300 a] lk with
        stage := { run := .running }, record := { (paired .qualify [] lk).record with peerV := some b } };
      ((s.link 0).record.state = .qualify ∧ (s.link 0).neighbourTag = some peer ∧ (s.link 0).stage.run = .ended ∧
        (s.link 0).record.peerV = none ∧ (s.link 0).record.localV = some a ∧
        (s.link 0).record.laneLmis = [300, 480].map some) ∧
      (r.link 0).record.state = .qualify ∧ (r.link 0).inbox = [.runResult [300, 480] 300 a] ∧
        (r.link 0).stage.run = .running ∧ (r.link 0).record.peerV = some b ∧
        (r.link 0).laneIdle = true ∧ (r.link 0).heldBy = none ∧ (r.env 0).ownTag.named = true) ∧
    (∀ run ∈ [RunState.notStarted, .running, .ended],
      let s := at0 fun lk => { paired .qualify [.page ⟨peer, .qualReady 5⟩] lk with
        stage := { run := run }, ownSeed := some 9 };
      (s.link 0).record.state = .qualify ∧ (s.link 0).neighbourTag = some peer ∧ (s.link 0).stage.run = run ∧
        (s.link 0).inbox = [.page ⟨peer, .qualReady 5⟩] ∧ (s.link 0).ownSeed = some 9 ∧ (s.link 0).tx.length < 4) ∧
    (let s := at0 fun lk => { paired .qualify [.runResult [300, 480] 300 .fail] lk with
        stage := { run := .running }, sending := some ⟨.item .trained, [], true⟩,
        record := { (paired .qualify [] lk).record with peerV := some .pass } };
      (s.link 0).record.state = .qualify ∧ (s.link 0).inbox = [.runResult [300, 480] 300 .fail] ∧
        (s.link 0).stage.run = .running ∧ (s.link 0).record.peerV = some .pass ∧ (s.link 0).sending.isSome = true ∧
        Verdict.fail.worse .pass = .fail) ∧
    (let s := at0 (paired .qualify [.page ⟨peer, .qualReady 5⟩]);
      (s.link 0).stage.granted = false ∧ (s.link 0).stage.run = .notStarted ∧ (s.link 0).record.peerV = none ∧
        (s.link 0).stage.run ≠ .ended ∧ (s.link 0).tx.length < 4) ∧
    (∀ ev ∈ [PageBody.qualResult .pass 0, .requal],
      let s := at0 fun lk => { paired .up [.page ⟨peer, ev⟩] lk with
        record := { (paired .up [] lk).record with localV := some .pass } };
      (s.link 0).inbox = [.page ⟨peer, ev⟩] ∧ (s.link 0).record.state = .up ∧ (s.link 0).record.localV = some .pass ∧
        (s.link 0).neighbourTag = some peer) := by decide

/-- Section 6.2: the QUAL_RESULT of a run that ends after the peer's result is sent, also where the verdict is FAIL
(R122). -/
theorem test_fail_sends_its_result :
    let t := after (.runResult 0) (at0 fun lk => { paired .qualify [.runResult [300, 480] 300 .fail] lk with
      stage := { run := .running }, record := { (paired .qualify [] lk).record with peerV := some .pass } });
    (t.link 0).record.state = .backoff ∧ (t.link 0).tx = [] ∧
      ((t.link 0).sending.map (·.what)) = some (.item (.qualResult .fail 300)) := by decide +kernel

theorem witness_ConversationsEnd :
    (∀ r ∈ [ByeReason.admin, .plan, .refused], ∀ st ∈ [LinkState.pairing, .up],
      let s := at0 (paired st [.page ⟨peer, .bye r⟩]);
      (s.link 0).inbox = [.page ⟨peer, .bye r⟩] ∧ (s.link 0).record.state.conversing = true ∧
        (s.link 0).neighbourTag = some peer) ∧
    (let s := at0 fun lk => piloted (inState .pairing [.page ⟨peer, .bye .admin⟩] lk);
      (s.link 0).neighbourTag = none ∧ (s.link 0).pilotTag = some peer) ∧
    (∀ t ∈ [peer, own], let s := at0 (paired .up [.page ⟨t, .keepalive⟩]);
      (s.link 0).inbox = [.page ⟨t, .keepalive⟩] ∧ (s.link 0).record.state = .up ∧
        ((s.link 0).neighbourTag = some t ↔ t = peer)) ∧
    (∀ n ∈ [14, 15], let s := at0 fun lk => { inState .pairing [.pageError] lk with stage := { tagged := n } };
      (s.link 0).inbox = [.pageError] ∧ (s.link 0).record.state = .pairing ∧
        ((s.link 0).stage.tagged + 1 < 16 ↔ n = 14)) := by decide

/-- A running length measurement. -/
def measuring (xs : List Sample) (next : Nat) (replies : List EchoReply) (lk : Link) : Link :=
  { lk with echo := ⟨true, Bank.of 3 fun i => xs.getD i .lost, next, some 1, replies⟩ }

theorem witness_LengthIsMeasuredAndChecked :
    (∀ n ∈ [1, 2], let lk := (at0 (measuring [.waiting, .waiting, .waiting] n [])).link 0;
      lk.echo.running = true ∧ lk.echo.timer ≠ none ∧ lk.tx.length < 4 ∧ lk.echo.next = n) ∧
    (∀ stamp ∈ [65635, 65636], let lk := (at0 (measuring [.answered 95 40 15, .outstanding 100 1, .answered 94 40 14] 3
        [⟨1, 40, stamp⟩])).link 0;
      lk.echo.replies = [⟨1, 40, stamp⟩] ∧ lk.echo.samples[(1 : Fin 3)] = .outstanding 100 1 ∧
        (stamp - 100 ≤ 65535 ↔ stamp = 65635) ∧ lk.echo.samples[(0 : Fin 3)] = .answered 95 40 15 ∧
        lk.echo.samples[(2 : Fin 3)] = .answered 94 40 14) ∧
    (let lk := (at0 (measuring [.outstanding 100 1, .waiting, .lost] 1 [])).link 0;
      ∃ k : Fin 3, k ≠ 0 ∧ lk.echo.samples[k].isOpen = true) ∧
    (∀ x ∈ [Sample.lost, .answered 95 40 15], ∀ y ∈ [Sample.lost, .answered 94 40 14],
      let lk := (at0 (measuring [x, .outstanding 100 1, y] 3 [])).link 0;
      lk.echo.running = true ∧ lk.echo.samples[(1 : Fin 3)] = .outstanding 100 1 ∧
        lk.echo.samples[(0 : Fin 3)] = x ∧ lk.echo.samples[(2 : Fin 3)] = y ∧
        ∀ k : Fin 3, k ≠ 1 → lk.echo.samples[k].isOpen = false) ∧
    (let lk := (at0 (measuring [.answered 95 40 15, .lost, .waiting] 2 [⟨1, 40, 9⟩])).link 0;
      lk.echo.replies = [⟨1, 40, 9⟩] ∧ lk.echo.samples[(1 : Fin 3)] = .lost) ∧
    (∀ x ∈ [39, 40, 60, 61], let s := at0 (inState .verify [.lengthResult (some x)]);
      (s.link 0).inbox = [.lengthResult (some x)] ∧ (s.link 0).record.state = .verify ∧
        (s.legPlan 0).length = some (50, 10) ∧ (s.legPlan 0).strict = .enforce ∧
        ((x + 10 < 50 ∨ 50 + 10 < x) ↔ x = 39 ∨ x = 61) ∧ (s.link 0).stage.trainReadySent = false ∧ (s.link 0).tx.length < 4) ∧
    ((at0 (inState .verify [.lengthResult none]) loose).legPlan 0).length = none ∧
    (∀ m ∈ [none, some 61], let s := at0 (inState .verify [.lengthResult m]) { plan with strict := .report };
      (s.link 0).inbox = [.lengthResult m] ∧ (s.link 0).record.state = .verify ∧
        (s.legPlan 0).length = some (50, 10) ∧ (s.legPlan 0).strict = .report ∧
        (s.link 0).record.length = none ∧ (s.link 0).stage.trainReadySent = false ∧ (s.link 0).tx.length < 4) ∧
    ((at0 (inState .up [.lengthResult none])).link 0).record.state ≠ .verify := by decide

/-- Offsets of the eight lanes. -/
def offsetsOf (xs : List (Option Nat)) : Vector (Option Nat) 8 := Bank.of 8 fun i => xs.getD i none

theorem witness_SkewIsMeasuredAndTakenOut :
    (∀ time ∈ [2047, 2048], let s := at0 fun lk => { inState .train [] lk with skew := .gap 0 };
      (s.link 0).record.state = .train ∧ nearLane (s.splitOf 0) 7 = (legOf 0, 7) ∧ (s.link 0).skew = .gap 0 ∧
        (0 + 2048 ≤ time ↔ time = 2048)) ∧
    (∀ time ∈ [6023, 6024], let s := at0 fun lk => { inState .train [] lk with
        skew := .collecting 5000 (offsetsOf [some 0]) };
      (s.link 0).skew = .collecting 5000 (offsetsOf [some 0]) ∧ (time - 5000 < 1024 ↔ time = 6023)) ∧
    ((base).link 0).record.state ≠ .train ∧
    (∀ last ∈ [some 255, some 256, none],
      let s := at0 fun lk => { inState .train [] lk with
        skew := .collecting 5000 (offsetsOf [some 0, some 1, some 2, some 3, some 4, some 5, some 6, last]) };
      (s.link 0).record.state = .train ∧ (s.env 0).width = 8 ∧
        (s.link 0).skew = .collecting 5000 (offsetsOf [some 0, some 1, some 2, some 3, some 4, some 5, some 6, last]) ∧
        ((∀ i : Lane, i.val < 8 →
          (offsetsOf [some 0, some 1, some 2, some 3, some 4, some 5, some 6, last])[i] ≠ none) ↔ last ≠ none)) ∧
    (∀ o ∈ [SkewOutcome.applied 255 [255, 0], .excess 256, .missing 7], let s := at0 (inState .train [.skewResult o]);
      (s.link 0).inbox = [.skewResult o] ∧ (s.link 0).record.state = .train ∧ (s.link 0).stage.trainedRecv = false ∧
        (s.link 0).tx.length < 4) := by decide

theorem witness_SequencersObeyTheHost :
    ∀ st ∈ [LinkState.off, .held, .up], ∀ ev ∈ [SeqEvent.takeDown 7, .bringUp 7],
      let s := at0 (inState st [ev]);
      (s.link 0).inbox = [ev] ∧ (s.link 0).record.state = st ∧ (s.row (portOf 0)).usable = true ∧
        (s.env 0).present = true ∧ (s.link 0).record.selfCheck = false := by decide

theorem witness_SequencersObeyTheHost_requalify :
    ∀ st ∈ [LinkState.up, .qualify], ∀ ev ∈ [SeqEvent.requalify 7 3, .stateQuery 7],
      let s := at0 (inState st [ev]);
      let r := (base).putLink 1 (inState st [ev] ((base).link 1));
      ((s.link 0).inbox = [ev] ∧ (s.link 0).record.state = st ∧ (s.link 0).tx = [] ∧ (s.env 0).present = true) ∧
        (r.link 1).inbox = [ev] ∧ (r.link 1).record.state = st ∧ (r.env 1).present = false := by decide

/-- Leg 1 of a WHOLE port is NOT PRESENT: it is told as OFF, and does not requalify (R4, R170, R177). -/
theorem test_not_present_link_is_off :
    ∀ ev ∈ [SeqEvent.requalify 7 3, .stateQuery 7],
      let t := after (match ev with | .requalify .. => .requalifyEvent 1 | _ => .stateQuery 1)
        ((base).putLink 1 (inState .up [ev] ((base).link 1)));
      (t.link 1).toOrder = [.answer 7 (.state .off)] ∧ (t.link 1).record.state = .up := by decide +kernel

/-- A NOT PRESENT link counts as OFF in the view of an AWAIT, whatever state the view holds (R177). -/
theorem test_await_counts_not_present_as_off :
    (base).awaitView [(0, .up), (1, .up)] = [(0, .up), (1, .off)] := by decide

/-! ### Lane Test Engines -/

/-- The base state with an engine 0 and a message of link 0 to it. -/
def engine0 (en : Engine) (msgs : List EngMsg := []) (f : Link → Link := id) : State :=
  (at0 fun lk => { f lk with toEngine := msgs }).putEngine 0 en

/-- Engine 0 owned by link 0, with a waiting list. -/
def owned (ws : List WaitEntry) : Engine := { Engine.free ws with phase := .granted, owner := some (.link 0) }

/-- A self-check of port 1. -/
def check1 : SelfCheck := ⟨7, 1, 16384, 480, 3⟩

theorem witness_EnginesAreGrantedInTurn :
    engineOfLink 0 = 0 ∧ engineOfLink 2 = 0 ∧ engineOf 1 = 0 ∧
    (let s := engine0 (Engine.free []) [.request 5];
      (s.link 0).toEngine = [.request 5] ∧ (s.engine 0).phase = .free ∧ (s.engine 0).waiting = []) ∧
    (let s := engine0 (owned [⟨.link 2, 7⟩, ⟨.link 3, 5⟩]) [.request 5];
      (s.link 0).toEngine = [.request 5] ∧ (s.engine 0).phase ≠ .free) ∧
    (∀ ws ∈ [[], [⟨Owner.link 2, 7⟩]], let s := engine0 (owned ws) [.departure];
      (s.link 0).toEngine = [.departure] ∧ (s.engine 0).owner = some (.link 0) ∧ (s.engine 0).waiting = ws) ∧
    (engine0 (Engine.free []) [.departure]).engine 0 = Engine.free [] ∧
    (∀ st ∈ [LinkState.qualify, .backoff], let s := at0 (inState st [.grant]);
      (s.link 0).inbox = [.grant] ∧ (s.link 0).record.state = st ∧ (s.link 0).stage.qualReadySent = false ∧
        (s.link 0).tx.length < 4) ∧
    (∀ en ∈ [Engine.free [], owned [], owned [⟨.self check1, 3⟩]],
      let s : State := { engine0 en with selfRequests := [check1] };
      s.selfRequests = [check1] ∧ s.engine 0 = en ∧ ∀ leg : Fin 2, (s.link (linkOf 1 leg)).record.state = .off) ∧
    (let s : State := { (base).putLink 2 (inState .up [] ((base).link 2)) with selfRequests := [check1] };
      (s.env (linkOf 1 0)).present = true ∧ (s.link (linkOf 1 0)).record.state = .up ∧ (s.engine 0).phase = .free) := by
  decide

/-- A self-check at the head of the list when its engine is released, with its port quiet and not. -/
theorem witness_EnginesAreGrantedInTurn_self :
    (let s := engine0 (owned [⟨.self check1, 3⟩, ⟨.link 0, 3⟩]) [.departure];
      (s.engine 0).owner = some (.link 0) ∧ (s.engine 0).waiting = [⟨.self check1, 3⟩, ⟨.link 0, 3⟩] ∧
        ∀ leg : Fin 2, (s.env (linkOf 1 leg)).present = true → (s.link (linkOf 1 leg)).record.state = .off) ∧
    (let s := (engine0 (owned [⟨.self check1, 3⟩]) [.departure]).putLink 2 (inState .up [] ((base).link 2));
      (s.engine 0).waiting = [⟨.self check1, 3⟩] ∧ (s.env (linkOf 1 0)).present = true ∧
        (s.link (linkOf 1 0)).record.state = .up) := by decide

/-- Link 0 in QUALIFY with its grant and its seed. -/
def granted (inbox : List SeqEvent) (st : Stage) (lk : Link) : Link :=
  { paired .qualify inbox lk with stage := { st with granted := true }, ownSeed := some 5 }

theorem witness_RunsStartWithBothReady :
    (let s := engine0 (owned []) [] (granted [.page ⟨peer, .qualReady 9⟩] { qualReadySent := true });
      (s.engine 0).owner = some (.link 0) ∧ (s.link 0).record.state = .qualify ∧ (s.link 0).stage.granted = true ∧
        (s.link 0).stage.run = .notStarted ∧ (s.link 0).ownSeed = some 5 ∧
        (s.link 0).record.neighbour = some ⟨peer, .whole⟩ ∧ (s.link 0).inbox = [.page ⟨peer, .qualReady 9⟩] ∧
        (s.link 0).stage.qualReadySent = true) ∧
    (let s := engine0 (owned []) [] fun lk =>
        sends (.item (.qualReady 5)) (granted [] { qualReadyRecv := true, peerSeed := some 9 } lk);
      (s.engine 0).owner = some (.link 0) ∧ (s.link 0).stage.granted = true ∧ (s.link 0).stage.run = .notStarted ∧
        (s.link 0).sending = some ⟨.item (.qualReady 5), [], true⟩ ∧ (s.link 0).stage.qualReadyRecv = true ∧
        (s.link 0).stage.peerSeed = some 9) := by decide

/-- Engine 0 in a run of a window, each lane at a place with a count. -/
def running0 (o : Owner) (ws : List WaitEntry) (place : Option Nat) (counted window : Nat) : Engine :=
  { Engine.running o ws 5 window with place := Bank.fill 8 place, words := Bank.fill 8 counted }

theorem witness_RunsCountAndEnd :
    ((base).engine 0).phase ≠ .running ∧
    (∀ place ∈ [none, some 0, some 65537], ∀ n ∈ [65534, 65535, 65536],
      let s := engine0 (running0 (.link 0) [] place n 65536);
      (s.engine 0).phase = .running ∧ (s.engine 0).owner = some (.link 0) ∧ (s.engine 0).seed = some 5 ∧
        (s.engine 0).window = some 65536 ∧ (7 : Lane).val < s.runLanes (.link 0) ∧
        (s.engine 0).place[(7 : Lane)] = place ∧ (s.engine 0).words[(7 : Lane)] = n ∧ (s.engine 0).waiting = []) ∧
    (let s := engine0 { owned [] with place := Bank.fill 8 (some 0) };
      (s.engine 0).phase = .granted ∧ (s.engine 0).place[(7 : Lane)] = some 0 ∧ s.runLanes (.link 0) = 8) ∧
    (let s := { changed .absent (halfRow plan plan) .qualify with engines := (engine0 (owned [])).engines };
      s.runLanes (.link 0) ≤ (4 : Lane).val) ∧
    (∀ ws ∈ [[], [WaitEntry.mk (.link 2) 7], [⟨.self check1, 3⟩]],
      let s := engine0 { running0 (.link 0) ws (some 65535) 65536 65536 with words := (Bank.fill 8 65536).set 7 65535 };
      (s.engine 0).waiting = ws ∧ (s.engine 0).words[(7 : Lane)] + 1 = 65536 ∧
        (∀ k : Lane, k ≠ 7 → 65536 ≤ (s.engine 0).words[k]) ∧
        ∀ leg : Fin 2, (s.link (linkOf 1 leg)).record.state = .off) := by
  decide

/-- The end of a self-check's run, with its order at work: both links in OFF, one that may run and one absent. -/
theorem witness_RunsCountAndEnd_self :
    let c := ctx (.active (.selfCheck 1 1 480) .atWork);
    let s := { engine0 (running0 (.self ⟨7, 1, 1, 480, 3⟩) [] (some 0) 0 65536) with contexts := [c] };
    (s.contexts.map (·.seq)).Nodup ∧ c ∈ s.contexts ∧ (s.engine 0).owner = some (.self ⟨7, 1, 1, 480, 3⟩) ∧
      (s.row 1).usable = true ∧ (s.env (linkOf 1 0)).present = true ∧ (s.env (linkOf 1 1)).present = false ∧
      (s.link (linkOf 1 0)).record.state = .off ∧ (s.link (linkOf 1 0)).record.adminDown = false := by decide

/-- A start block that comes under the grant is kept when the run starts, and its words are counted (R121). -/
theorem test_start_block_under_grant :
    let s := engine0 (owned []) [] (granted [.page ⟨peer, .qualReady 9⟩] { qualReadySent := true });
    let t := after (.qualReadyReceived 0) (after (.testWordReceived 0 7 1) (after (.startBlockReceived 0 7) s));
    (t.engine 0).phase = .running ∧ (t.engine 0).place[(7 : Lane)] = some 1 ∧ (t.engine 0).words[(7 : Lane)] = 0 := by
  decide

/-- The gate's two directions (R17): core lane 1 on near lane 1, the far lane's core lane back. -/
theorem test_gate_directions :
    let lk := (at0 fun lk => { inState .up [] lk with
      record := { (inState .up [] lk).record with laneMap := [some ⟨1, true⟩, some ⟨0, false⟩] } }).link 0;
    Link.cableSource ((base).env 0) lk 1 = some 1 ∧
      Link.cableSource ((base).env 0) ((at0 (inState .qualify)).link 0) 1 = none := by decide

theorem witness_LmisAreDifferencesOfLogs :
    (1 ≤ 1 ∧ quarterLog 1 = 0 ∧ (1 : Nat) ≤ 2 ∧ quarterLog 6 = 40) ∧
    (1 : Nat) ≤ 16384 ∧ 65535 ≤ 65535 ∧ ([480, 256] : List Nat) ≠ [] ∧ legLmiOf [480, 256] = 256 := by decide

theorem witness_VerdictsAndLengthsFollowTheirTables : ((14 : Nat) ≤ 15 ∧ 15 ≤ 16) ∧ median 15 16 14 = 15 := by decide

end Sys2Proof.Tests
end

section
/-! PROOFS. The tables of verdicts, sample lengths and medians: what each function of Machine/Margin.lean answers, and
the statement assembled from that. -/

namespace Sys2Proof.Machine

/-! ## Verdicts (R128, R129) -/

@[simp] theorem localVerdict_eq_pass_iff (c : ClassEntry) (leg span : Nat) :
    localVerdict c leg span = .pass ↔ c.pass ≤ leg ∧ span ≤ c.skewLimit := by
  unfold localVerdict
  split
  case isTrue passes => exact iff_of_true rfl passes
  case isFalse short => split <;> simp [short]

/-- PASS is asked first, so that the order of the two thresholds does not matter here. -/
@[simp] theorem localVerdict_eq_fail_iff (c : ClassEntry) (leg span : Nat) :
    localVerdict c leg span = .fail ↔ leg < c.marginal ∧ ¬(c.pass ≤ leg ∧ span ≤ c.skewLimit) := by
  unfold localVerdict
  split
  case isTrue passes => simp [passes]
  case isFalse short =>
    split
    case isTrue marginal => simp [marginal]
    case isFalse low => exact iff_of_true rfl ⟨Nat.lt_of_not_le low, short⟩

@[simp] theorem Verdict.worse_eq_fail_iff (a b : Verdict) : a.worse b = .fail ↔ a = .fail ∨ b = .fail := by
  cases a <;> cases b <;> simp [Verdict.worse]

@[simp] theorem Verdict.worse_eq_pass_iff (a b : Verdict) : a.worse b = .pass ↔ a = .pass ∧ b = .pass := by
  cases a <;> cases b <;> simp [Verdict.worse]

/-! ## Sample lengths and medians (R107, R108) -/

/-- The lower clamp of R107 is the truncation of the model's subtraction. -/
theorem sampleLength_eq_clamp (rtt h : Nat) :
    (sampleLength rtt h : Int) = max 0 (min 4095 ((rtt : Int) - h - 40)) := by
  unfold sampleLength
  omega

theorem median_eq_one_of (a b c : Nat) : median a b c = a ∨ median a b c = b ∨ median a b c = c := by
  unfold median
  omega

theorem median_swap_left (a b c : Nat) : median a b c = median b a c := by
  simp only [median, min_comm a b, max_comm a b]

theorem median_swap_right (a b c : Nat) : median a b c = median a c b := by
  unfold median
  omega

theorem median_of_between {a b c : Nat} (between : (a ≤ b ∧ b ≤ c) ∨ (c ≤ b ∧ b ≤ a)) : median a b c = b := by
  obtain ⟨ab, bc⟩ | ⟨cb, ba⟩ := between
  · calc median a b c = max a (min b c) := by rw [median, min_eq_left ab, max_eq_right ab]
      _ = b := by rw [min_eq_left bc, max_eq_right ab]
  · calc median a b c = max b (min a c) := by rw [median, min_eq_right ba, max_eq_left ba]
      _ = b := max_eq_left ((min_le_right a c).trans cb)

/-- Settles O60, clause by clause from the equations above. -/
theorem verdictsAndLengthsFollowTheirTables : Obligations.VerdictsAndLengthsFollowTheirTables :=
  ⟨fun c leg span => ⟨localVerdict_eq_pass_iff c leg span, localVerdict_eq_fail_iff c leg span⟩,
    fun a b => ⟨a.worse_eq_fail_iff b, a.worse_eq_pass_iff b⟩,
    sampleLength_eq_clamp,
    fun a b c => ⟨median_eq_one_of a b c, median_of_between, median_swap_left a b c, median_swap_right a b c⟩⟩

end Sys2Proof.Machine
end

section
/-! PROOFS. The quarter-log read as place and fraction, and the LMIs it gives: the fraction is the four-bit quotient
16 r / 2^p in both branches of Machine/Margin.lean, from which its bounds, the order of the logs and the range of the LMIs
follow. -/

namespace Sys2Proof.Machine

/-! ## The quarter-log (R125) -/

/-- The fraction f of R125, for the place p of the highest set bit and the remainder r below it. -/
def quarterFraction (p r : Nat) : Nat := if 4 ≤ p then r / 2 ^ (p - 4) else r * 2 ^ (4 - p)

theorem quarterLog_eq (x : Nat) : quarterLog x = 16 * x.log2 + quarterFraction x.log2 (x - 2 ^ x.log2) := rfl

theorem quarterFraction_of_le {p : Nat} (large : 4 ≤ p) (r : Nat) : quarterFraction p r = r / 2 ^ (p - 4) := if_pos large

theorem quarterFraction_of_lt {p : Nat} (small : p < 4) (r : Nat) : quarterFraction p r = r * 2 ^ (4 - p) :=
  if_neg (Nat.not_le.mpr small)

/-- Both branches are one quotient: the right shift drops a factor of numerator and denominator, the left shift is exact. -/
theorem quarterFraction_eq_div (p r : Nat) : quarterFraction p r = 16 * r / 2 ^ p := by
  obtain small | large := Nat.lt_or_ge p 4
  · have factors : 16 = 2 ^ (4 - p) * 2 ^ p := (pow_sub_mul_pow 2 small.le).symm
    rw [quarterFraction_of_lt small, factors, Nat.mul_right_comm, Nat.mul_div_cancel _ (Nat.two_pow_pos p), Nat.mul_comm]
  · have factors : 2 ^ p = 16 * 2 ^ (p - 4) := (pow_mul_pow_sub 2 large).symm
    rw [quarterFraction_of_le large, factors, Nat.mul_div_mul_left _ _ (by decide)]

@[simp] theorem quarterFraction_zero (p : Nat) : quarterFraction p 0 = 0 := by simp [quarterFraction_eq_div]

theorem quarterFraction_mono (p : Nat) {r r' : Nat} (le : r ≤ r') : quarterFraction p r ≤ quarterFraction p r' := by
  simp only [quarterFraction_eq_div]
  exact Nat.div_le_div_right (Nat.mul_le_mul_left 16 le)

theorem quarterFraction_lt {p r : Nat} (below : r < 2 ^ p) : quarterFraction p r < 16 := by
  rw [quarterFraction_eq_div]
  exact Nat.div_lt_of_lt_mul (by omega)

theorem sub_two_pow_log2_lt (x : Nat) : x - 2 ^ x.log2 < 2 ^ x.log2 := by
  have above : x < 2 ^ (x.log2 + 1) := Nat.lt_log2_self
  omega

theorem quarterLog_lt (x : Nat) : quarterLog x < 16 * (x.log2 + 1) := by
  have fraction := quarterFraction_lt (sub_two_pow_log2_lt x)
  rw [quarterLog_eq]
  omega

@[simp] theorem quarterLog_two_pow (p : Nat) : quarterLog (2 ^ p) = 16 * p := by
  simp [quarterLog_eq]

/-- Within one place the fraction orders the logs; a higher place outweighs every fraction. -/
theorem quarterLog_mono {x y : Nat} (le : x ≤ y) : quarterLog x ≤ quarterLog y := by
  have places : x.log2 ≤ y.log2 := by simpa only [Nat.log2_eq_log_two] using Nat.log_mono_right le
  obtain higher | same := places.lt_or_eq
  · calc quarterLog x ≤ 16 * (x.log2 + 1) := (quarterLog_lt x).le
      _ ≤ 16 * y.log2 := Nat.mul_le_mul_left 16 higher
      _ ≤ quarterLog y := Nat.le_add_right _ _
  · rw [quarterLog_eq, quarterLog_eq, same]
    exact Nat.add_le_add_left (quarterFraction_mono _ (Nat.sub_le_sub_right le _)) _

/-- The three parts of R125 that an integer of 1 or more has. -/
theorem quarterLog_place_and_fraction {x : Nat} (positive : 1 ≤ x) :
    ∃ p r f, 2 ^ p ≤ x ∧ x < 2 ^ (p + 1) ∧ r = x - 2 ^ p ∧ f ≤ 15 ∧
      (4 ≤ p → f = r / 2 ^ (p - 4)) ∧ (p < 4 → f = r * 2 ^ (4 - p)) ∧ quarterLog x = 16 * p + f :=
  ⟨x.log2, x - 2 ^ x.log2, quarterFraction x.log2 (x - 2 ^ x.log2),
    Nat.log2_self_le (Nat.ne_of_gt positive), Nat.lt_log2_self, rfl,
    Nat.le_of_lt_succ (quarterFraction_lt (sub_two_pow_log2_lt x)),
    fun large => quarterFraction_of_le large _, fun small => quarterFraction_of_lt small _, quarterLog_eq x⟩

/-! ## LMIs (R126) -/

/-- The model's subtraction loses nothing: E+1 is at most 65536, one window unit in words. -/
theorem laneLmi_add_quarterLog {units errors : Nat} (units_pos : 1 ≤ units) (counted : errors ≤ 65535) :
    laneLmi (windowWords units) errors + quarterLog (errors + 1) = quarterLog (units * 65536) :=
  have within : errors + 1 ≤ units * 65536 := by omega
  Nat.sub_add_cancel (quarterLog_mono within)

theorem laneLmi_le_480 {units : Nat} (errors : Nat) (in_range : units ≤ 16384) :
    laneLmi (windowWords units) errors ≤ 480 :=
  calc laneLmi (windowWords units) errors ≤ quarterLog (units * 65536) := Nat.sub_le _ _
    _ ≤ quarterLog (2 ^ 30) := quarterLog_mono (by omega)
    _ = 480 := quarterLog_two_pow 30

@[simp] theorem laneLmi_no_errors (window : Nat) : laneLmi window 0 = quarterLog window := by
  have log_one : quarterLog 1 = 0 := quarterLog_two_pow 0
  simp [laneLmi, log_one]

/-- An induction along the list as the model walks it: its last element, or the lesser of the head and the rest. -/
theorem legLmiOf_isLeast : ∀ {xs : List Nat}, xs ≠ [] → legLmiOf xs ∈ xs ∧ ∀ x ∈ xs, legLmiOf xs ≤ x
  | [x], _ => by simp [legLmiOf]
  | x :: y :: xs, _ => by
    obtain ⟨rest_mem, rest_le⟩ := legLmiOf_isLeast (List.cons_ne_nil y xs)
    have cons_eq : legLmiOf (x :: y :: xs) = min x (legLmiOf (y :: xs)) := rfl
    rw [cons_eq]
    constructor
    · obtain head | rest := min_choice x (legLmiOf (y :: xs))
      · rw [head]
        exact List.mem_cons_self
      · rw [rest]
        exact List.mem_cons_of_mem x rest_mem
    · intro z z_mem
      obtain rfl | z_rest := List.mem_cons.mp z_mem
      · exact min_le_left _ _
      · exact (min_le_right _ _).trans (rest_le z z_rest)

/-- Settles O59: the log's clauses, then the LMIs' from its order and its value at 2^30. -/
theorem lmisAreDifferencesOfLogs : Obligations.LmisAreDifferencesOfLogs :=
  ⟨⟨fun _ positive => quarterLog_place_and_fraction positive, fun _ _ _ le => quarterLog_mono le, quarterLog_two_pow⟩,
    fun _ errors units_pos in_range counted =>
      ⟨laneLmi_add_quarterLog units_pos counted, laneLmi_le_480 errors in_range⟩,
    fun units => laneLmi_no_errors (windowWords units),
    fun _ nonempty => legLmiOf_isLeast nonempty⟩

end Sys2Proof.Machine
end

section
/-! PROOFS. What every step of a link keeps: its gate is open if and only if it is in UP (R17), and its FIFO and its
transmit queue stay within their capacities (R51, R53). One lemma for each operation of Machine/PageLink.lean,
Machine/Sequencer.lean and the commands built from them; a composed operation cites those of its parts. -/

namespace Sys2Proof.Machine

-- One declaration at a time: the threads of a parallel elaboration exceed the memory of the check.
set_option Elab.async false

/-- A step of a link keeps the gate with UP, and the bounds of the FIFO and of the transmit queue, each by itself. -/
structure Link.Keeps (lk new : Link) : Prop where
  gate : (lk.gate = true ↔ lk.record.state = .up) → (new.gate = true ↔ new.record.state = .up)
  rx : lk.rx.length ≤ 8 → new.rx.length ≤ 8
  tx : lk.tx.length ≤ 4 → new.tx.length ≤ 4

namespace Link.Keeps

theorem refl (lk : Link) : lk.Keeps lk := ⟨id, id, id⟩

theorem trans {a b c : Link} (h : a.Keeps b) (k : b.Keeps c) : a.Keeps c :=
  ⟨k.gate ∘ h.gate, k.rx ∘ h.rx, k.tx ∘ h.tx⟩

/-- A step that leaves the gate, the state, the FIFO and the transmit queue as they were. -/
theorem same {lk new : Link} (hg : new.gate = lk.gate := by rfl)
    (hs : new.record.state = lk.record.state := by rfl) (hr : new.rx = lk.rx := by rfl)
    (ht : new.tx = lk.tx := by rfl) : lk.Keeps new :=
  ⟨by rw [hg, hs]; exact id, by rw [hr]; exact id, by rw [ht]; exact id⟩

/-- A step that leaves gate and state, and lengthens neither list. -/
theorem shorter {lk new : Link} (hg : new.gate = lk.gate) (hs : new.record.state = lk.record.state)
    (hr : new.rx.length ≤ lk.rx.length) (ht : new.tx.length ≤ lk.tx.length) : lk.Keeps new :=
  ⟨by rw [hg, hs]; exact id, hr.trans, ht.trans⟩

end Link.Keeps

variable (e : Env) (lk : Link)

/-! ## Echo samples and the transmit queue -/

theorem Link.echoSettle_keeps : lk.Keeps lk.echoSettle := by
  unfold Link.echoSettle
  split
  · exact .same
  · exact .refl lk

theorem Link.setSample_keeps (n : Fin 3) (x : Sample) : lk.Keeps (lk.setSample n x) := .same

theorem Link.setSettle_keeps (n : Fin 3) (x : Sample) : lk.Keeps (lk.setSample n x).echoSettle :=
  (lk.setSample_keeps n x).trans (Link.echoSettle_keeps _)

theorem Link.echoSent_keeps (n : Fin 3) (now : Nat) : lk.Keeps (lk.echoSent n now) := by
  unfold Link.echoSent
  split
  · exact lk.setSample_keeps _ _
  · exact .refl lk

theorem Link.echoMatch_keeps (r : EchoReply) : lk.Keeps (lk.echoMatch r) := by
  unfold Link.echoMatch
  split
  · dsimp only
    split
    · exact lk.setSettle_keeps _ _
    · exact lk.setSettle_keeps _ _
  · exact .refl lk

theorem Link.echoExpire_keeps (n : Fin 3) : lk.Keeps (lk.echoExpire n) := by
  unfold Link.echoExpire
  split
  · exact lk.setSettle_keeps _ _
  · exact .refl lk

theorem Link.queuePage_keeps (it : TxItem) : lk.Keeps (lk.queuePage it) where
  gate := by simp
  rx := by simp
  tx := lk.queuePage_length it

theorem Link.echoDue_keeps : lk.Keeps lk.echoDue := by
  unfold Link.echoDue
  split
  · exact .trans .same (Link.queuePage_keeps _ _)
  · exact .trans .same (Link.queuePage_keeps _ _)
  · exact .refl lk

theorem Link.cancelBye_keeps : lk.Keeps lk.cancelBye :=
  .shorter rfl rfl le_rfl (List.length_filter_le _ _)

theorem Link.sendBye_keeps (r : ByeReason) : lk.Keeps (lk.sendBye r) := by
  unfold Link.sendBye
  refine .trans ?_ (Link.queuePage_keeps _ _)
  exact .shorter rfl rfl le_rfl (Nat.zero_le _)

theorem Link.byeIfConversing_keeps (r : ByeReason) : lk.Keeps (lk.byeIfConversing r) := by
  unfold Link.byeIfConversing
  split
  · exact lk.sendBye_keeps r
  · exact .refl lk

theorem Link.byeCopy_keeps : lk.Keeps lk.byeCopy := by
  unfold Link.byeCopy
  split
  · exact .trans .same (Link.queuePage_keeps _ _)
  · exact .refl lk
  · exact .refl lk

theorem Link.clearPages_keeps : lk.Keeps lk.clearPages :=
  .shorter rfl rfl (Nat.zero_le _) (List.length_filter_le _ _)

theorem Link.directBeacons_keeps : lk.Keeps (lk.directBeacons e) := by
  unfold Link.directBeacons
  split
  · exact .same
  · exact .refl lk

theorem Link.announce_keeps : lk.Keeps (lk.announce e) :=
  Link.queuePages_keep (P := lk.Keeps) (fun _ it h => h.trans (Link.queuePage_keeps _ it)) _ _
    (.trans .same (Link.directBeacons_keeps e _))

/-! ## The FIFO -/

theorem Link.store_keeps (entry : RxEntry) : lk.Keeps (lk.store entry) := by
  unfold Link.store
  split
  case isTrue room => exact ⟨id, fun _ => by simp; omega, id⟩
  case isFalse => exact .same

theorem Link.serve_keeps : lk.Keeps lk.serve := by
  unfold Link.serve
  split
  · exact .refl lk
  case _ entry rest rx =>
    have shorter : rest.length ≤ lk.rx.length := by simp [rx]
    cases entry
    · exact .shorter rfl rfl shorter le_rfl
    · exact .shorter rfl rfl shorter le_rfl

theorem Link.touchSilent_keeps : lk.Keeps lk.touchSilent := .same

theorem Link.conversationArrives_keeps (p : Page) (a : Arrival) : lk.Keeps (lk.conversationArrives p a) := by
  refine lk.touchSilent_keeps.trans ?_
  unfold Link.conversationArrives
  generalize lk.touchSilent = touched
  dsimp only
  split
  · exact .same
  · exact .same
  · exact .same
  · exact .same
  · exact touched.store_keeps _

/-! ## The transmitter -/

theorem Link.beginPage_keeps (what : Sent) (body : PageBody) : lk.Keeps (lk.beginPage e what body) := .same

theorem Link.beginQueued_keeps : lk.Keeps (lk.beginQueued e) := by
  unfold Link.beginQueued
  split
  case _ tx =>
    refine .trans ?_ (Link.beginPage_keeps e _ _ _)
    exact .shorter rfl rfl le_rfl (by simp [tx])
  · exact .refl lk

theorem Link.queueAtBoundary_keeps (it : TxItem) : lk.Keeps (lk.queueAtBoundary e it) := by
  unfold Link.queueAtBoundary
  split
  · exact (lk.queuePage_keeps it).trans (Link.beginQueued_keeps e _)
  · exact lk.queuePage_keeps it

theorem Link.beginNext_keeps (now : Nat) : lk.Keeps (lk.beginNext e now) := by
  unfold Link.beginNext
  split
  · exact .trans .same (Link.beginPage_keeps e _ _ _)
  · split
    · dsimp only
      split
      · exact .trans .same (Link.beginPage_keeps e _ _ _)
      · exact .trans .same (Link.beginQueued_keeps e _)
    · exact lk.beginQueued_keeps e

theorem Link.txStart_keeps (now : Nat) : lk.Keeps (lk.txStart e now) := by
  unfold Link.txStart
  split
  · exact .refl lk
  · exact lk.beginNext_keeps e now

/-! ## Observations and arrivals -/

theorem Link.followObs_keeps : lk.Keeps lk.followObs := .same

theorem Link.clearObs_keeps : lk.Keeps lk.clearObs := by
  unfold Link.clearObs
  dsimp only
  split
  · exact .trans .same (Link.followObs_keeps _)
  · exact .same

theorem Link.beaconArrives_keeps (lane : Lane) (o : Obs) : lk.Keeps (lk.beaconArrives e lane o) := by
  unfold Link.beaconArrives
  split
  case h_1 => split <;> exact .same
  case h_2 => dsimp only; split <;> exact .same
  all_goals exact .refl lk

theorem Link.pageArrives_keeps (lane : Lane) (a : Arrival) : lk.Keeps (lk.pageArrives e lane a) := by
  unfold Link.pageArrives
  split
  · exact .refl lk
  · split
    · exact lk.beaconArrives_keeps e _ _
    · split
      · exact lk.conversationArrives_keeps _ _
      · exact .refl lk
    · split
      · exact lk.store_keeps _
      · exact .refl lk

/-! ## The transition (R61) -/

theorem Link.movePages_keeps (st : LinkState) : lk.Keeps (lk.movePages st) := by
  unfold Link.movePages
  split
  · exact lk.clearPages_keeps
  · split
    · exact lk.cancelBye_keeps
    · exact .refl lk

theorem Link.moveUnits_keeps (st : LinkState) : lk.Keeps (lk.moveUnits e st) := by
  unfold Link.moveUnits
  cases st <;> exact .same

theorem Link.entrySends_keeps (st : LinkState) (en : Entry) : lk.Keeps (lk.entrySends st en) := by
  unfold Link.entrySends
  cases st
  case up => exact lk.queuePage_keeps _
  case verify => exact lk.queuePage_keeps _
  all_goals exact .same

/-- A transition opens the gate at UP and closes it at every other state (R17, R61). -/
theorem Link.move_keeps (st : LinkState) (en : Entry) : lk.Keeps (lk.move e st en) := by
  have pages : ∀ p : Link, p.Keeps ((((p.movePages st).moveUnits e st).announce e).entrySends st en) := fun p =>
    (((p.movePages_keeps st).trans (Link.moveUnits_keeps e _ st)).trans (Link.announce_keeps e _)).trans
      (Link.entrySends_keeps _ st en)
  refine ⟨fun _ => by simp, fun h => ?_, fun h => ?_⟩
  · exact (pages _).rx (by simpa using h)
  · exact (pages _).tx (by simpa using h)

/-! ## Discrepancies and failures -/

theorem Link.setReason_keeps (r : Reason) : lk.Keeps (lk.setReason r) := .same

theorem Link.raise_keeps (k : DiscKind) (d : Nat) (x o : Option Tag) (t : Word) : lk.Keeps (lk.raise e k d x o t) :=
  .same (by simp) (by rw [Link.raise_record]; split <;> rfl) (by simp) (by simp)

theorem Link.retryable_keeps (why : Reason) : lk.Keeps (lk.retryable e why) := by
  refine (lk.setReason_keeps why).trans ?_
  unfold Link.retryable
  generalize lk.setReason why = lk
  dsimp only
  split
  · exact .trans .same (Link.move_keeps e _ _ _)
  · refine (lk.move_keeps e .held {}).trans ?_
    exact .trans .same (Link.raise_keeps e _ _ _ _ _ _)

theorem Link.lose_keeps (why : Reason) : lk.Keeps (lk.lose e why) :=
  (lk.setReason_keeps why).trans (Link.move_keeps e _ _ _)

theorem Link.refuse_keeps : lk.Keeps (lk.refuse e) := (lk.byeIfConversing_keeps _).trans (Link.move_keeps e _ _ _)

theorem Link.failBy_keeps (why : Reason) : lk.Keeps (lk.failBy e why) := by
  unfold Link.failBy
  cases lk.record.state
  case up => exact lk.lose_keeps e why
  case pairing | verify | train | qualify => exact lk.retryable_keeps e why
  all_goals exact .refl lk

theorem Link.fatal_keeps (k : DiscKind) (d : Nat) (o : Tag) (t : Word) : lk.Keeps (lk.fatal e k d o t) :=
  (lk.raise_keeps e _ _ _ _ _).trans (Link.refuse_keeps e _)

/-! ## VERIFY, TRAIN, QUALIFY -/

theorem Link.verifyOrder_keeps : lk.Keeps (lk.verifyOrder e) := by
  unfold Link.verifyOrder
  split
  · dsimp only
    split
    · exact (lk.raise_keeps e _ _ _ _ _).trans (Link.refuse_keeps e _)
    · exact lk.raise_keeps e _ _ _ _ _
  · exact .refl lk

theorem Link.enterVerify_keeps : lk.Keeps (lk.enterVerify e) := by
  refine (lk.move_keeps e .verify {}).trans ?_
  unfold Link.enterVerify
  generalize lk.move e .verify = lk
  dsimp only
  split
  · split
    · exact (lk.raise_keeps e _ _ _ _ _).trans (Link.refuse_keeps e _)
    · exact (lk.raise_keeps e _ _ _ _ _).trans (Link.verifyOrder_keeps e _)
  · exact lk.verifyOrder_keeps e

theorem Link.tryVerify_keeps : lk.Keeps (lk.tryVerify e) := by
  unfold Link.tryVerify
  split
  · exact lk.enterVerify_keeps e
  · exact .refl lk

theorem Link.tryTrain_keeps : lk.Keeps (lk.tryTrain e) := by
  unfold Link.tryTrain
  split
  · exact lk.move_keeps e _ _
  · exact .refl lk

theorem Link.tryQualify_keeps : lk.Keeps (lk.tryQualify e) := by
  unfold Link.tryQualify
  split
  · exact lk.move_keeps e _ _
  · exact .refl lk

/-- The checks of VERIFY have passed: TRAIN_READY is queued, and may be the last that TRAIN waits for. -/
def Link.verifyPasses : Link :=
  ({ lk with stage := { lk.stage with verifyPassed := true } }.queuePage .trainReady).tryTrain e

/-- The length check of VERIFY, once a measured length has been recorded (R69, R78). -/
def Link.lengthChecked : Link :=
  match lk.lengthFault e with
  | some m => if e.leg.strict = .enforce then (lk.raiseLength e m).refuse e else (lk.raiseLength e m).verifyPasses e
  | none => lk.verifyPasses e

theorem Link.lengthArrives_some (m : Nat) (h : lk.record.state = .verify) :
    lk.lengthArrives e (some m) = { lk with record := { lk.record with length := some m } }.lengthChecked e := by
  unfold Link.lengthArrives
  rw [if_pos h]
  rfl

theorem Link.lengthArrives_none (h : lk.record.state = .verify) : lk.lengthArrives e none = lk.lengthChecked e := by
  unfold Link.lengthArrives
  rw [if_pos h]
  rfl

theorem Link.lengthArrives_elsewhere (m : Option Nat) (h : lk.record.state ≠ .verify) : lk.lengthArrives e m = lk := by
  unfold Link.lengthArrives
  rw [if_neg h]

theorem Link.verifyPasses_keeps : lk.Keeps (lk.verifyPasses e) := by
  unfold Link.verifyPasses
  refine .trans ?_ ((Link.queuePage_keeps _ _).trans (Link.tryTrain_keeps e _))
  exact .same

theorem Link.lengthChecked_keeps : lk.Keeps (lk.lengthChecked e) := by
  unfold Link.lengthChecked
  split
  · split
    · exact (lk.raise_keeps e _ _ _ _ _).trans (Link.refuse_keeps e _)
    · exact (lk.raise_keeps e _ _ _ _ _).trans (Link.verifyPasses_keeps e _)
  · exact lk.verifyPasses_keeps e

theorem Link.lengthArrives_keeps (m : Option Nat) : lk.Keeps (lk.lengthArrives e m) := by
  by_cases h : lk.record.state = .verify
  · cases m with
    | some m =>
      rw [lk.lengthArrives_some e m h]
      exact .trans .same (Link.lengthChecked_keeps e _)
    | none =>
      rw [lk.lengthArrives_none e h]
      exact lk.lengthChecked_keeps e
  · rw [lk.lengthArrives_elsewhere e m h]
    exact .refl lk

theorem Link.skewArrives_keeps (o : SkewOutcome) : lk.Keeps (lk.skewArrives e o) := by
  unfold Link.skewArrives
  split
  · cases o
    · exact .trans (.trans .same (Link.queuePage_keeps _ _)) (Link.tryQualify_keeps e _)
    · exact .trans (.trans .same (Link.raise_keeps e _ _ _ _ _ _)) (Link.retryable_keeps e _ _)
    · exact (lk.raise_keeps e _ _ _ _ _).trans (Link.retryable_keeps e _ _)
  · exact .refl lk

theorem Link.verdictEvent_keeps (v : Verdict) (leg : Nat) : lk.Keeps (lk.verdictEvent e v leg) := .same

theorem Link.finalVerdict_keeps : lk.Keeps (lk.finalVerdict e) := by
  unfold Link.finalVerdict
  split
  · dsimp only
    split
    · exact .trans (.trans .same (Link.verdictEvent_keeps e _ _ _)) (Link.move_keeps e _ _ _)
    · exact .trans (.trans (.trans .same (Link.raise_keeps e _ _ _ _ _ _)) (Link.verdictEvent_keeps e _ _ _))
        (Link.move_keeps e _ _ _)
    · exact .trans (.trans (.trans .same (Link.raise_keeps e _ _ _ _ _ _)) (Link.verdictEvent_keeps e _ _ _))
        (Link.retryable_keeps e _ _)
  · exact .refl lk

theorem Link.runEnds_keeps (lmis : List Nat) (leg : Nat) (v : Verdict) : lk.Keeps (lk.runEnds e lmis leg v) := by
  unfold Link.runEnds
  split
  · dsimp only
    split
    · exact .trans (.trans .same (Link.queueAtBoundary_keeps e _ _)) (Link.finalVerdict_keeps e _)
    · exact .trans .same (Link.queuePage_keeps _ _)
  · exact .refl lk

/-! ## Pages -/

theorem Link.takeFarExpect_keeps (k : ExpectKind) (st : Strictness) (t : Tag) :
    lk.Keeps (lk.takeFarExpect e k st t) := by
  unfold Link.takeFarExpect
  generalize (if k = .specific then some t else none) = tag
  dsimp only
  split
  · exact .trans .same (Link.raise_keeps e _ _ _ _ _ _)
  · exact .same

theorem Link.takePeerClass_keeps (units burst : Nat) : lk.Keeps (lk.takePeerClass units burst) := .same

theorem Link.identArrives_keeps (sender : Tag) (sp : Split) (k : ExpectKind) (st : Strictness) (t : Tag)
    (units burst : Nat) : lk.Keeps (lk.identArrives e sender sp k st t units burst) := by
  unfold Link.identArrives
  split
  case h_1 =>
    split
    · split
      · exact lk.fatal_keeps e _ _ _ _
      · split
        · exact lk.fatal_keeps e _ _ _ _
        · refine .trans ?_ ((Link.takeFarExpect_keeps e _ _ _ _).trans (Link.tryVerify_keeps e _))
          exact .same
    · exact .refl lk
  case h_2 =>
    split
    · split
      · exact lk.fatal_keeps e _ _ _ _
      · exact (lk.takePeerClass_keeps _ _).trans (Link.takeFarExpect_keeps e _ _ _ _)
    · exact .refl lk
  all_goals exact .refl lk

theorem Link.trainReadyArrives_keeps (t : Tag) : lk.Keeps (lk.trainReadyArrives e t) := by
  unfold Link.trainReadyArrives
  split
  · split
    case h_1 => exact .trans .same (Link.tryTrain_keeps e _)
    case h_2 => exact lk.queuePage_keeps _
    all_goals exact .refl lk
  · exact .refl lk

theorem Link.trainedArrives_keeps (t : Tag) : lk.Keeps (lk.trainedArrives e t) := by
  unfold Link.trainedArrives
  split
  · split
    case h_1 => exact .trans .same (Link.tryQualify_keeps e _)
    case h_2 => exact lk.queuePage_keeps _
    all_goals exact .refl lk
  · exact .refl lk

theorem Link.qualReadyArrives_keeps (t : Tag) (seed : Word) : lk.Keeps (lk.qualReadyArrives t seed) := by
  unfold Link.qualReadyArrives
  split
  · dsimp only
    split
    · exact .same
    · exact .same
    · split
      · exact .trans .same (Link.queuePage_keeps _ _)
      · exact .same
  · exact .refl lk

theorem Link.qualResultArrives_keeps (t : Tag) (v : Verdict) : lk.Keeps (lk.qualResultArrives e t v) := by
  unfold Link.qualResultArrives
  split
  · split
    case h_1 =>
      dsimp only
      split
      · exact .same
      · split
        · exact .trans .same (Link.finalVerdict_keeps e _)
        · exact .same
    case h_2 =>
      split
      · exact lk.queuePage_keeps _
      · exact .refl lk
    all_goals exact .refl lk
  · exact .refl lk

theorem Link.requalArrives_keeps (t : Tag) : lk.Keeps (lk.requalArrives e t) := by
  unfold Link.requalArrives
  split
  · exact lk.move_keeps e _ _
  · exact .refl lk

theorem Link.keepaliveArrives_keeps (t : Tag) : lk.Keeps (lk.keepaliveArrives e t) := by
  unfold Link.keepaliveArrives
  split
  · exact (lk.raise_keeps e _ _ _ _ _).trans (Link.move_keeps e _ _ _)
  · exact .refl lk

/-- The sender of a BYE is the neighbour, or before it the tag on the pilot lane (R73). -/
def Link.byeKnown (t : Tag) : Bool :=
  match lk.neighbourTag with
  | some n => decide (n = t)
  | none => decide (lk.pilotTag = some t)

theorem Link.byeArrives_known (t : Tag) (r : ByeReason) (hc : lk.record.state.conversing = true)
    (hk : lk.byeKnown t = true) : lk.byeArrives e t r =
      match r with
      | .admin => (lk.setReason .peerAdmin).move e .listen
      | .plan => (lk.setReason .peerPlan).move e .listen
      | .refused => (lk.raise e .peerRefused lk.record.state.code e.expected (some t) e.uptime).move e .held :=
  if_pos (c := lk.record.state.conversing = true ∧ lk.byeKnown t = true) ⟨hc, hk⟩

theorem Link.byeArrives_elsewhere (t : Tag) (r : ByeReason)
    (h : ¬(lk.record.state.conversing = true ∧ lk.byeKnown t = true)) : lk.byeArrives e t r = lk :=
  if_neg (c := lk.record.state.conversing = true ∧ lk.byeKnown t = true) h

theorem Link.byeArrives_keeps (t : Tag) (r : ByeReason) : lk.Keeps (lk.byeArrives e t r) := by
  by_cases h : lk.record.state.conversing = true ∧ lk.byeKnown t = true
  · rw [lk.byeArrives_known e t r h.1 h.2]
    cases r
    · exact (lk.setReason_keeps _).trans (Link.move_keeps e _ _ _)
    · exact (lk.setReason_keeps _).trans (Link.move_keeps e _ _ _)
    · exact (lk.raise_keeps e _ _ _ _ _).trans (Link.move_keeps e _ _ _)
  · rw [lk.byeArrives_elsewhere e t r h]
    exact .refl lk

theorem Link.pageErrorArrives_keeps : lk.Keeps (lk.pageErrorArrives e) := by
  unfold Link.pageErrorArrives
  split
  · dsimp only
    split
    · exact .trans .same (Link.retryable_keeps e _ _)
    · exact .same
  · exact .refl lk

theorem Link.txEnd_keeps (now : Nat) : lk.Keeps (lk.txEnd e now) := by
  unfold Link.txEnd
  split
  · exact .refl lk
  · dsimp only
    split
    case h_4 => exact .trans .same (Link.echoSent_keeps _ _ _)
    case h_5 =>
      split
      · exact .trans .same (Link.tryTrain_keeps e _)
      · exact .same
    case h_6 =>
      split
      · exact .trans .same (Link.tryQualify_keeps e _)
      · exact .same
    case h_7 => split <;> exact .same
    all_goals exact .same

/-! ## Restarts and reconciliation -/

theorem Link.restartMarks_keeps : lk.Keeps lk.restartMarks := .same

theorem Link.restart_keeps : lk.Keeps (lk.restart e) := by
  have moves : ∀ st, lk.Keeps (lk.restartMarks.move e st) := fun st =>
    lk.restartMarks_keeps.trans (Link.move_keeps e _ st _)
  unfold Link.restart
  cases lk.record.state
  case off =>
    dsimp only
    split
    · split
      · exact lk.restartMarks_keeps
      · exact moves _
    · exact .refl lk
  case held => dsimp only; split <;> exact moves _
  case listen => exact lk.restartMarks_keeps
  all_goals exact ((lk.byeIfConversing_keeps _).trans (Link.restartMarks_keeps _)).trans (Link.move_keeps e _ _ _)

theorem Link.stop_keeps (r : ByeReason) : lk.Keeps (lk.stop e r) := by
  unfold Link.stop
  split
  · exact .refl lk
  · exact (lk.byeIfConversing_keeps r).trans (Link.move_keeps e _ _ _)

theorem Link.takeDown_keeps : lk.Keeps (lk.takeDown e) := (lk.stop_keeps e _).trans .same

theorem Link.bringUp_keeps : lk.Keeps (lk.bringUp e) := by
  unfold Link.bringUp
  dsimp only
  split
  case h_1 | h_2 =>
    split
    · exact .trans .same (Link.move_keeps e _ _ _)
    · exact .same
  all_goals exact .same

theorem Link.selfCheckBegins_keeps : lk.Keeps lk.selfCheckBegins := lk.cancelBye_keeps.trans .same

theorem Link.selfCheckFlagOff_keeps : lk.Keeps lk.selfCheckFlagOff := .same

theorem Link.afterSelfCheck_keeps : lk.Keeps (lk.afterSelfCheck e) := by
  unfold Link.afterSelfCheck
  split
  · exact lk.move_keeps e _ _
  · exact .refl lk

theorem Link.ownTagChanges_keeps : lk.Keeps (lk.ownTagChanges e) := by
  unfold Link.ownTagChanges
  split
  · exact ((lk.sendBye_keeps _).trans (Link.restartMarks_keeps _)).trans (Link.move_keeps e _ _ _)
  · exact .refl lk

theorem Link.cutOff_keeps : lk.Keeps lk.cutOff := .shorter rfl rfl le_rfl (Nat.zero_le _)

theorem Link.fitWidth_keeps (d : RowDelta) (leg : Fin 2) : lk.Keeps (lk.fitWidth e d leg) := by
  unfold Link.fitWidth
  split
  · dsimp only
    split
    · exact .same
    · exact .trans .same (Link.cutOff_keeps _)
  · exact .refl lk

/-- What each check of re-verification makes of a link: a failure is raised (R30). -/
def Link.checkIdentity : Link :=
  match lk.identityFault e with
  | some n => lk.raiseIdentity e n
  | none => lk

def Link.checkOrder : Link :=
  match lk.orderFault e with
  | some i => lk.raiseOrder e i
  | none => lk

def Link.checkLength : Link :=
  match lk.lengthFault e with
  | some m => lk.raiseLength e m
  | none => lk

theorem Link.reverify_fst : (lk.reverify e).1 = ((lk.checkIdentity e).checkOrder e).checkLength e := by
  have identity : ∀ lk : Link, (match lk.identityFault e with
      | some n => (lk.raiseIdentity e n, some DiscKind.unexpectedNeighbour)
      | none => (lk, none)).1 = lk.checkIdentity e := fun lk => by
    unfold Link.checkIdentity
    split <;> rfl
  have order : ∀ lk : Link, (match lk.orderFault e with
      | some i => (lk.raiseOrder e i, some DiscKind.laneOrder)
      | none => (lk, none)).1 = lk.checkOrder e := fun lk => by
    unfold Link.checkOrder
    split <;> rfl
  have length : ∀ lk : Link, (match lk.lengthFault e with
      | some m => (lk.raiseLength e m, some DiscKind.length)
      | none => (lk, none)).1 = lk.checkLength e := fun lk => by
    unfold Link.checkLength
    split <;> rfl
  rw [← identity, ← order, ← length]
  rfl

theorem Link.checkIdentity_keeps : lk.Keeps (lk.checkIdentity e) := by
  unfold Link.checkIdentity
  split
  · exact lk.raise_keeps e _ _ _ _ _
  · exact .refl lk

theorem Link.checkOrder_keeps : lk.Keeps (lk.checkOrder e) := by
  unfold Link.checkOrder
  split
  · exact lk.raise_keeps e _ _ _ _ _
  · exact .refl lk

theorem Link.checkLength_keeps : lk.Keeps (lk.checkLength e) := by
  unfold Link.checkLength
  split
  · exact lk.raise_keeps e _ _ _ _ _
  · exact .refl lk

theorem Link.reverify_keeps : lk.Keeps (lk.reverify e).1 := by
  rw [Link.reverify_fst]
  exact ((lk.checkIdentity_keeps e).trans (Link.checkOrder_keeps e _)).trans (Link.checkLength_keeps e _)

theorem Link.listenPolicy_keeps (old new : Option ExpectKind) : lk.Keeps (lk.listenPolicy old new) := by
  unfold Link.listenPolicy
  split
  · exact .refl lk
  · dsimp only
    split
    · exact .same
    · split <;> exact .same

theorem Link.policyChanges_keeps (old new : Option ExpectKind) : lk.Keeps (lk.policyChanges e old new) := by
  have checked : ∀ {p : Link × Option DiscKind}, lk.reverify e = p → lk.Keeps p.1 := fun h => h ▸ lk.reverify_keeps e
  unfold Link.policyChanges
  split
  case h_1 =>
    split
    · exact lk.restart_keeps e
    · split
      · next h => exact checked h
      · next h =>
        split
        · exact ((checked h).trans (Link.setReason_keeps _ _)).trans (Link.refuse_keeps e _)
        · exact checked h
  case h_6 =>
    split
    · split
      · exact lk.restart_keeps e
      · split
        · next h => exact (checked h).trans (Link.restart_keeps e _)
        · next h =>
          split
          · exact (checked h).trans (Link.restart_keeps e _)
          · exact (checked h).trans (Link.setReason_keeps _ _)
    · exact .refl lk
  case h_7 => exact lk.listenPolicy_keeps _ _
  case h_8 | h_9 => exact .refl lk
  all_goals exact lk.restart_keeps e

theorem Link.classChanges_keeps : lk.Keeps (lk.classChanges e) := by
  unfold Link.classChanges
  cases lk.record.state
  case pairing | verify | train | qualify => exact lk.restart_keeps e
  all_goals exact .refl lk

theorem Link.splitStop_keeps (d : RowDelta) (leg : Fin 2) : lk.Keeps (lk.splitStop e d leg) :=
  (lk.stop_keeps e _).trans (Link.fitWidth_keeps e _ _ _)

theorem Link.rowInvalid_keeps (d : RowDelta) (leg : Fin 2) (c : RowCause) : lk.Keeps (lk.rowInvalid e d leg c) := by
  refine (lk.splitStop_keeps e d leg).trans ?_
  unfold Link.rowInvalid
  dsimp only
  split
  · exact Link.raise_keeps e _ _ _ _ _ _
  · exact Link.setReason_keeps _ _

theorem Link.rowDisabled_keeps (d : RowDelta) (leg : Fin 2) : lk.Keeps (lk.rowDisabled e d leg) := by
  unfold Link.rowDisabled
  split
  · exact lk.fitWidth_keeps e d leg
  · exact (lk.splitStop_keeps e d leg).trans (Link.setReason_keeps _ _)

theorem Link.rowEnabled_keeps (d : RowDelta) (leg : Fin 2) : lk.Keeps (lk.rowEnabled e d leg) := by
  unfold Link.rowEnabled
  dsimp only
  split
  · exact (lk.fitWidth_keeps e d leg).trans (Link.restart_keeps e _)
  · exact lk.fitWidth_keeps e d leg

theorem Link.splitStart_keeps (d : RowDelta) (leg : Fin 2) : lk.Keeps (lk.splitStart e d leg) := by
  unfold Link.splitStart
  split
  · exact .refl lk
  · split
    · exact lk.restart_keeps e
    · exact lk.setReason_keeps _

theorem Link.reconcile_keeps (d : RowDelta) (leg : Fin 2) : lk.Keeps (lk.reconcile e d leg) := by
  unfold Link.reconcile
  cases d.case leg
  · exact lk.rowInvalid_keeps e _ _ _
  · exact lk.rowDisabled_keeps e _ _
  · exact lk.rowEnabled_keeps e _ _
  · exact lk.splitStop_keeps e _ _
  · exact lk.policyChanges_keeps e _ _
  · exact lk.classChanges_keeps e
  · exact lk.fitWidth_keeps e _ _
  · exact .refl lk

theorem Link.reconcileEnd_keeps (d : RowDelta) (leg : Fin 2) : lk.Keeps (lk.reconcileEnd e d leg) := by
  have started : lk.Keeps (if d.case leg = .split then lk.splitStart e d leg else lk) := by
    split
    · exact lk.splitStart_keeps e _ _
    · exact .refl lk
  refine started.trans ?_
  unfold Link.reconcileEnd
  dsimp only
  generalize (if d.case leg = .split then lk.splitStart e d leg else lk) = lk
  cases d.new.leg leg
  · exact .refl lk
  · exact .same

/-! ## Timers, signals, measurements -/

theorem Link.startRun_keeps : lk.Keeps (lk.startRun e) := .same

theorem Link.markerSeen_keeps (lane : Lane) (time : Nat) : lk.Keeps (lk.markerSeen lane time) := by
  unfold Link.markerSeen
  split
  · exact .same
  · split
    · exact .same
    · exact .refl lk
  · exact .refl lk

theorem Link.skewEnds_keeps : lk.Keeps (lk.skewEnds e) := by
  unfold Link.skewEnds
  split
  · dsimp only
    split
    · exact .same
    · split <;> exact .same
  all_goals exact .refl lk

theorem Link.holdForceEnds_keeps : lk.Keeps lk.holdForceEnds := .same

theorem Link.pairingExpires_keeps : lk.Keeps (lk.pairingExpires e) := by
  unfold Link.pairingExpires
  split
  · exact (lk.raise_keeps e _ _ _ _ _).trans (Link.retryable_keeps e _ _)
  · exact lk.retryable_keeps e _

theorem Link.signalLost_keeps (lane : Lane) : lk.Keeps (lk.signalLost e lane) := by
  unfold Link.signalLost
  split
  case h_1 =>
    split
    · exact lk.retryable_keeps e _
    · exact .refl lk
  case h_2 | h_3 | h_4 => exact lk.retryable_keeps e _
  case h_5 => exact lk.lose_keeps e _
  all_goals exact .refl lk

theorem Link.firstBeacon_keeps (lane : Lane) : lk.Keeps (lk.firstBeacon e lane) :=
  ((lk.move_keeps e _ _).trans (Link.followObs_keeps _)).trans .same

theorem Link.firstReport_keeps (lane : Lane) : lk.Keeps (lk.firstReport e lane) := by
  unfold Link.firstReport
  split
  · split
    · exact .same
    · exact lk.firstBeacon_keeps e _
  · exact .refl lk

theorem Link.quietHeard_keeps (lane : Lane) (t : Tag) (seen : Word) : lk.Keeps (lk.quietHeard e lane t seen) := by
  unfold Link.quietHeard
  dsimp only
  split
  · exact .same
  · exact (lk.raise_keeps e .unexpectedCable lane.val none (some t) seen).trans .same

theorem Link.answer_keeps (ref : Word) (a : Answer) : lk.Keeps (lk.answer ref a) := .same

theorem Link.tick_keeps : lk.Keeps lk.tick := .same

end Sys2Proof.Machine
end


section
/-! PROOFS. What the operations of the part keep: one relation, `State.Keeps`, that holds of each of them, of their
compositions and of their repetitions, from which every invariant of Sys2Proof/Safety.lean is read off. -/

namespace Sys2Proof.Machine

-- One declaration at a time: the threads of a parallel elaboration exceed the memory of the check.
set_option Elab.async false

/-! ## The relation -/

/-- One memory comes from another by landing some of the given steps, any number of times. -/
inductive Lands (ws : List WStep) (m : List Host.Cell) : List Host.Cell → Prop
  | refl : Lands ws m m
  | step {m' : List Host.Cell} {w : WStep} : Lands ws m m' → w ∈ ws → Lands ws m (Memory.write m' w.addr w.bytes)

theorem Lands.trans {ws : List WStep} {a b c : List Host.Cell} (h : Lands ws a b) (k : Lands ws b c) : Lands ws a c := by
  induction k with
  | refl => exact h
  | step _ hw ih => exact .step ih hw

theorem Lands.mono {ws vs : List WStep} (hs : ws ⊆ vs) {a b : List Host.Cell} (h : Lands ws a b) : Lands vs a b := by
  induction h with
  | refl => exact .refl
  | step _ hw ih => exact .step ih (hs hw)

/-- With no step to land memory stays as it was. -/
theorem Lands.eq {a b : List Host.Cell} (h : Lands [] a b) : b = a := by
  cases h with
  | refl => rfl
  | step _ hw => exact absurd hw List.not_mem_nil

theorem Lands.wf {ws : List WStep} {a b : List Host.Cell} (h : Lands ws a b) (ha : Memory.wf a = true) :
    Memory.wf b = true := by
  induction h with
  | refl => exact ha
  | step _ _ ih => exact Memory.wf_write _ _ _ ih

/-- A byte outside the steps reads as before. -/
theorem Lands.get_other {ws : List WStep} {a b : List Host.Cell} (h : Lands ws a b) {x : Nat}
    (hx : ∀ w ∈ ws, x < w.addr ∨ w.addr + w.bytes.length ≤ x) : Memory.get b x = Memory.get a x := by
  induction h with
  | refl => rfl
  | step _ hw ih => rw [Memory.get_write_other _ _ _ (hx _ hw), ih]

/-- An operation that leaves the queue of commands, lands the given steps only, adds no order in flight, and keeps every
invariant. -/
structure State.Keeps (s t : State) (ws : List WStep := []) : Prop where
  pending : t.pending = s.pending := by rfl
  mem : Lands ws s.hostMem t.hostMem := by exact .refl
  links : ∀ l, (s.link l).Keeps (t.link l) := by exact fun l => .refl _
  log : s.logOk → t.logOk := by exact id
  seqs : (t.contexts.map (·.seq)).Sublist (s.contexts.map (·.seq)) := by exact .refl _
  dirty : s.dirtyOk → t.dirtyOk := by exact id
  engines : s.enginesOk → t.enginesOk := by exact id
  status : s.statusOk → t.statusOk := by exact id

namespace State.Keeps

theorem refl (s : State) {ws : List WStep} : s.Keeps s ws := {}

theorem trans {s t u : State} {ws : List WStep} (h : s.Keeps t ws) (k : t.Keeps u ws) : s.Keeps u ws where
  pending := k.pending.trans h.pending
  mem := h.mem.trans k.mem
  links l := (h.links l).trans (k.links l)
  log := k.log ∘ h.log
  seqs := k.seqs.trans h.seqs
  dirty := k.dirty ∘ h.dirty
  engines := k.engines ∘ h.engines
  status := k.status ∘ h.status

theorem mono {s t : State} {ws vs : List WStep} (hs : ws ⊆ vs) (h : s.Keeps t ws) : s.Keeps t vs :=
  { h with mem := h.mem.mono hs }

/-- An operation that lands nothing, seen among some that may. -/
theorem quiet {s t : State} {ws : List WStep} (h : s.Keeps t) : s.Keeps t ws := h.mono (List.nil_subset ws)

theorem foldl {α : Type} {f : State → α → State} (h : ∀ (s : State) a, s.Keeps (f s a)) (xs : List α) (s : State) :
    s.Keeps (xs.foldl f s) := by
  induction xs generalizing s with
  | nil => exact .refl s
  | cons x xs ih => exact (h s x).trans (ih _)

theorem ite {s t u : State} {ws : List WStep} {p : Prop} [Decidable p] (h : p → s.Keeps t ws) (k : ¬p → s.Keeps u ws) :
    s.Keeps (if p then t else u) ws := by
  split
  · exact h ‹_›
  · exact k ‹_›

end State.Keeps

variable (s : State)

/-! ## The write queue and the status block -/

/-- The entries of the write queue that have not begun. -/
def State.notBegun : List QEntry := if s.headBegun then s.writeQueue.drop 1 else s.writeQueue

theorem State.statusOk_iff : s.statusOk ↔ (s.notBegun.filter fun q => q.kind.isStatus).length ≤ 1 := Iff.rfl

theorem State.statusWaiting_eq_any : s.statusWaiting = s.notBegun.any fun q => q.kind.isStatus := rfl

theorem State.headBegun_congr {s t : State} (h : t.writing = s.writing) : t.headBegun = s.headBegun := by
  unfold State.headBegun
  rw [h]

/-- Entries that join the queue at its tail wait beside those that waited. -/
theorem State.notBegun_append {s t : State} (ys : List QEntry) (hq : t.writeQueue = s.writeQueue ++ ys)
    (hw : t.writing = s.writing) : t.notBegun.Sublist (s.notBegun ++ ys) := by
  unfold State.notBegun
  rw [State.headBegun_congr hw, hq]
  split
  · rw [List.drop_append]
    exact (List.Sublist.refl _).append (List.drop_sublist _ _)
  · exact .refl _

theorem State.statusOk_append {s t : State} (ys : List QEntry) (hq : t.writeQueue = s.writeQueue ++ ys)
    (hw : t.writing = s.writing) (hy : ∀ q ∈ ys, q.kind.isStatus = false) (h : s.statusOk) : t.statusOk := by
  have sub := ((State.notBegun_append ys hq hw).filter fun q => q.kind.isStatus).length_le
  have none : ys.filter (fun q => q.kind.isStatus) = [] := List.filter_eq_nil_iff.2 fun q hm => by simp [hy q hm]
  rw [List.filter_append, none, List.append_nil] at sub
  exact sub.trans h

/-- A status block entry joins a queue in which none waits. -/
theorem State.statusOk_first {s t : State} (q : QEntry) (hq : t.writeQueue = s.writeQueue ++ [q])
    (hw : t.writing = s.writing) (h : s.statusWaiting = false) : t.statusOk := by
  have sub := ((State.notBegun_append [q] hq hw).filter fun q => q.kind.isStatus).length_le
  have none : s.notBegun.filter (fun q => q.kind.isStatus) = [] := List.filter_eq_nil_iff.2 fun q hm => by
    rw [State.statusWaiting_eq_any, List.any_eq_false] at h
    exact h q hm
  rw [List.filter_append, none, List.nil_append] at sub
  exact sub.trans (List.length_filter_le _ _)

theorem State.pushEntry_keeps (q : QEntry) (h : q.kind.isStatus = false := by rfl) : s.Keeps (s.pushEntry q) :=
  { status := State.statusOk_append [q] rfl rfl (by simpa using h) }

theorem State.queueStatus_keeps : s.Keeps s.queueStatus := by
  unfold State.queueStatus
  refine .ite (fun h => ?_) fun _ => .refl s
  exact { status := fun _ => State.statusOk_first _ rfl rfl (by simpa using h.2) }

/-- The mark that a status block entry takes leaves it one, and leaves every other entry. -/
theorem filter_remark (m : StatusMark) (xs : List QEntry) :
    ((xs.map fun q => if q.kind.isStatus then { q with kind := .status m } else q).filter
      fun q => q.kind.isStatus).length = (xs.filter fun q => q.kind.isStatus).length := by
  rw [List.filter_map, List.length_map]
  congr 1
  refine List.filter_congr fun q _ => ?_
  simp only [Function.comp_apply]
  split
  · next hs => exact hs.symm
  · rfl

theorem State.queueMarked_keeps (m : StatusMark) : s.Keeps (s.queueMarked m) := by
  unfold State.queueMarked
  refine .ite (fun _ => ?_) fun h => { status := fun _ => State.statusOk_first _ rfl rfl (by simpa using h) }
  have writing : ∀ q, State.headBegun { s with writeQueue := q } = s.headBegun := fun _ => rfl
  refine { status := fun h => ?_ }
  unfold State.statusOk at h ⊢
  refine (le_of_eq ?_).trans h
  cases hb : s.headBegun
  · simp only [writing, hb, Bool.false_eq_true, if_false]
    exact filter_remark m s.writeQueue
  · simp only [writing, hb, if_true]
    cases s.writeQueue with
    | nil => rfl
    | cons q qs => exact filter_remark m qs

theorem State.statusChange_keeps : s.Keeps s.statusChange := by
  unfold State.statusChange
  refine .ite (fun _ => .ite (fun _ => ?_) fun _ => {}) fun _ => .refl s
  exact .trans {} (State.queueStatus_keeps { s with statusDue := true })

theorem State.changePart_keeps (p : PartState) : s.Keeps (s.changePart p) :=
  .trans {} (State.queueStatus_keeps { s with part := p })

/-! ## Links -/

theorem State.markDirty_keeps (l : LinkId) : s.Keeps (s.markDirty l) := by
  unfold State.markDirty
  refine .ite (fun _ => .refl s) fun h => { dirty := fun nodup => ?_ }
  unfold State.dirtyOk at nodup ⊢
  exact List.nodup_append.2 ⟨nodup, by simp, fun a ha b hb => by
    rw [List.mem_singleton] at hb
    rintro rfl
    exact h (.inr (hb ▸ ha))⟩

theorem State.putLink_keeps (l : LinkId) (lk : Link) (h : (s.link l).Keeps lk) : s.Keeps (s.putLink l lk) :=
  { links := fun k => by
      by_cases hk : k = l
      · rw [hk, State.link_putLink]; exact h
      · rw [State.link_putLink_other s lk hk]; exact .refl _ }

theorem State.onLink_keeps (l : LinkId) {f : Env → Link → Link} (h : ∀ (e : Env) (lk : Link), lk.Keeps (f e lk)) :
    s.Keeps (s.onLink l f) := by
  unfold State.onLink
  dsimp only
  have marked : s.Keeps (if (f (s.env l) (s.link l)).record = (s.link l).record then s.putLink l (f (s.env l) (s.link l))
      else (s.putLink l (f (s.env l) (s.link l))).markDirty l) :=
    .ite (fun _ => s.putLink_keeps l _ (h _ _)) fun _ => (s.putLink_keeps l _ (h _ _)).trans (State.markDirty_keeps _ _)
  exact .ite (fun _ => marked) fun _ => marked.trans (State.statusChange_keeps _)

theorem State.send_keeps (l : LinkId) (ev : SeqEvent) : s.Keeps (s.send l ev) := s.putLink_keeps l _ .same

theorem State.dropEvent_keeps (l : LinkId) : s.Keeps (s.dropEvent l) := s.putLink_keeps l _ .same

theorem State.dropEngMsg_keeps (l : LinkId) : s.Keeps (s.dropEngMsg l) := s.putLink_keeps l _ .same

theorem State.dropOrdMsg_keeps (l : LinkId) : s.Keeps (s.dropOrdMsg l) := s.putLink_keeps l _ .same

theorem State.takeEvent_keeps (l : LinkId) {f : Env → Link → Link} (h : ∀ (e : Env) (lk : Link), lk.Keeps (f e lk)) :
    s.Keeps ((s.dropEvent l).onLink l f) := (s.dropEvent_keeps l).trans (State.onLink_keeps _ l h)

theorem State.sendAll_keeps (ls : List LinkId) (ev : SeqEvent) : s.Keeps (s.sendAll ls ev) :=
  .foldl (fun s l => s.send_keeps l ev) ls s

theorem State.markAll_keeps : s.Keeps s.markAll := .foldl (fun s l => s.markDirty_keeps l) _ s

/-! ## Engines -/

/-- An engine's owner and waiting list are on its two ports (R111, R112). -/
def Engine.on (en : Engine) (e : EngineId) : Prop :=
  (∀ o, en.owner = some o → o.on e) ∧ ∀ w ∈ en.waiting, w.who.on e

theorem State.putEngine_keeps (e : EngineId) (en : Engine) (h : s.enginesOk → en.on e) : s.Keeps (s.putEngine e en) :=
  { engines := fun ok k => by
      by_cases hk : k = e
      · rw [hk, State.engine_putEngine]; exact h ok
      · rw [State.engine_putEngine_other s en hk]; exact ok k }

/-! ## Part states and the fault path -/

theorem State.notify_keeps (f : BitVec 5) : s.Keeps (s.notify f) := {}

theorem State.enterIdle_keeps : s.Keeps s.enterIdle := { dirty := fun _ => List.nodup_nil }

theorem State.checkQuiesce_keeps : s.Keeps s.checkQuiesce := by
  unfold State.checkQuiesce
  exact .ite (fun _ => .ite (fun _ => s.queueMarked_keeps _) fun _ => s.enterIdle_keeps) fun _ => .refl s

theorem State.checkRunning_keeps : s.Keeps s.checkRunning := by
  unfold State.checkRunning
  split
  case h_1 => exact .ite (fun _ => .trans {} (State.changePart_keeps _ _)) fun _ => .refl s
  all_goals exact .refl s

theorem State.enterFaulted_keeps : s.Keeps s.enterFaulted := by
  unfold State.enterFaulted
  split
  case h_4 | h_5 => exact .refl s
  all_goals exact .trans {} (State.changePart_keeps _ _)

theorem State.takeFault_keeps (addr : Nat) (k : FaultKind) (src : FaultSource) : s.Keeps (s.takeFault addr k src) := by
  refine .trans ?_ (State.enterFaulted_keeps _)
  unfold State.captureFault
  exact .ite (fun _ => {}) fun _ => {}

/-! ## Orders -/

theorem State.setPhase_keeps (q : Word) (ph : Phase) : s.Keeps (s.setPhase q ph) :=
  { seqs := by rw [State.setPhase_seqs] }

theorem State.freeCtx_keeps (q : Word) : s.Keeps (s.freeCtx q) :=
  { seqs := List.filter_sublist.map _ }

theorem State.endOrder_keeps (q : Word) (st : Status) (result : List Byte) : s.Keeps (s.endOrder q st result) := by
  unfold State.endOrder
  split
  case h_1 => exact ((s.pushEntry_keeps _).trans (State.pushEntry_keeps _ _)).trans (State.setPhase_keeps _ _ _)
  all_goals exact .refl s

theorem State.endStanding_keeps (q : Word) (st : Status) : s.Keeps (s.endStanding q st) := by
  unfold State.endStanding
  split
  · exact .ite (fun _ => s.endOrder_keeps _ _ _) fun _ => .refl s
  · exact .refl s

theorem State.fenceLeaves_keeps (fence gone : Word) : s.Keeps (s.fenceLeaves fence gone) := by
  unfold State.fenceLeaves
  split
  · exact .ite (fun _ => s.endOrder_keeps _ _ _) fun _ => s.setPhase_keeps _ _
  · exact .refl s

theorem State.releaseFences_keeps (gone : Word) : s.Keeps (s.releaseFences gone) :=
  .foldl (fun s f => s.fenceLeaves_keeps f gone) _ s

theorem State.awaitCheck_keeps (q : Word) (o : Order) (waiting : List LinkId) (view : List (LinkId × LinkState))
    (timer : Timer) : s.Keeps (s.awaitCheck q o waiting view timer) := by
  refine (s.setPhase_keeps q (.active o (.viewing waiting view timer))).trans ?_
  unfold State.awaitCheck
  split
  · exact .ite (fun _ => State.endOrder_keeps _ _ _ _) fun _ => .refl _
  · exact .refl _

theorem State.offer_keeps (l : LinkId) (ev : LinkEvt) (q : Word) : s.Keeps (s.offer l ev q) := by
  unfold State.offer
  split
  · refine .ite (fun _ => ?_) fun _ => .refl s
    dsimp only
    exact .ite (fun _ => ((s.pushEntry_keeps _).trans (State.setPhase_keeps _ _ _)).trans (State.endOrder_keeps _ _ _ _))
      fun _ => (s.pushEntry_keeps _).trans (State.setPhase_keeps _ _ _)
  · split
    · exact .ite (fun _ => s.awaitCheck_keeps _ _ _ _ _) fun _ => .refl s
    all_goals exact .refl s
  · exact .refl s

theorem State.offerAll_keeps (l : LinkId) (ev : LinkEvt) : s.Keeps (s.offerAll l ev) :=
  .foldl (fun s q => s.offer_keeps l ev q) _ s

theorem State.handOver_keeps (q : Word) (prio : Nat) (o : Order) : s.Keeps (s.handOver q prio o) := by
  unfold State.handOver
  cases o
  case adoptPlan | refresh => exact {}
  case bringUp | takeDown | selfCheck => exact s.sendAll_keeps _ _
  case requalify => exact s.send_keeps _ _
  case locate => exact s.endOrder_keeps _ _ _
  case watch => exact .ite (fun _ => s.endStanding_keeps _ _) fun _ => .refl s
  case await => exact .ite (fun _ => s.endStanding_keeps _ _) fun _ => s.sendAll_keeps _ _
  case fence => exact .ite (fun _ => s.endOrder_keeps _ _ _) fun _ => .refl s

theorem State.countTaken_keeps : s.Keeps s.countTaken := .trans {} (State.statusChange_keeps _)

theorem State.activate_keeps (c : Ctx) (o : Order) : s.Keeps (s.activate c o) := by
  unfold State.activate
  have started : s.Keeps ((((s.pushEntry (s.takenEntry c)).countTaken).setPhase c.seq
      (.active o (((s.pushEntry (s.takenEntry c)).countTaken).beginProgress c.seq o))).handOver c.seq c.prio o) :=
    (((s.pushEntry_keeps _).trans (State.countTaken_keeps _)).trans (State.setPhase_keeps _ _ _)).trans
      (State.handOver_keeps _ _ _ _)
  exact .ite (fun _ => started.trans (State.releaseFences_keeps _ _)) fun _ => started

theorem State.refuseTake_keeps (c : Ctx) (st : Status) (standing : Bool) : s.Keeps (s.refuseTake c st standing) :=
  (((s.pushEntry_keeps _).trans (State.countTaken_keeps _)).trans (State.pushEntry_keeps _ _)).trans
    (State.setPhase_keeps _ _ _)

theorem State.dropTake_keeps (c : Ctx) : s.Keeps (s.dropTake c) := by
  refine .trans (.trans ?_ (State.releaseFences_keeps _ _)) (State.checkQuiesce_keeps _)
  refine .trans ?_ (State.statusChange_keeps _)
  exact (s.freeCtx_keeps c.seq).trans {}

theorem State.slotData_keeps (c : Ctx) (bs : List Byte) : s.Keeps (s.slotData c bs) := by
  unfold State.slotData
  split
  · exact s.dropTake_keeps c
  · exact s.refuseTake_keeps c _ _
  · exact s.activate_keeps c _

theorem State.slotFault_keeps (c : Ctx) : s.Keeps (s.slotFault c) :=
  (s.setPhase_keeps _ _).trans (State.takeFault_keeps _ _ _ _)

theorem State.unpost_keeps (slot : Nat) : s.Keeps (s.unpost slot) := {}

theorem State.answerAttn_keeps (r : AttnResult) : s.Keeps (s.answerAttn r) := {}

theorem State.postTaken_keeps (slot prio : Nat) : s.Keeps (s.postTaken slot prio) := by
  unfold State.postTaken
  exact .ite (fun _ => {}) fun _ => .ite (fun _ => {}) fun _ => {}

theorem State.recallTaken_keeps (slot : Nat) : s.Keeps (s.recallTaken slot) := by
  unfold State.recallTaken
  refine .ite (fun _ => {}) fun _ => .ite (fun _ => ?_) fun _ => ?_
  · exact ((s.unpost_keeps slot).trans (State.pushEntry_keeps _ _)).trans (State.answerAttn_keeps _ _)
  · split
    · exact .ite (fun _ => (s.endStanding_keeps _ _).trans (State.answerAttn_keeps _ _)) fun _ => {}
    all_goals exact {}

theorem State.stopOrders_keeps : s.Keeps s.stopOrders := by
  refine .trans ?_ (.foldl (fun s q => s.endStanding_keeps q .stopped) _ _)
  exact .trans (t := { s with posted := [] }) {} (.foldl (fun s _ => s.pushEntry_keeps _) _ _)

theorem State.actedAnswer_keeps (q : Word) (o : Order) (mask : Addr) (waiting : List LinkId) (acted : Addr)
    (l : LinkId) (yes partly : Bool) : s.Keeps (s.actedAnswer q o mask waiting acted l yes partly) := by
  unfold State.actedAnswer
  exact .ite (fun _ => s.endOrder_keeps _ _ _) fun _ => s.setPhase_keeps _ _

theorem State.selfCheckAnswer_keeps (q : Word) (prio : Nat) (port : PortId) (units threshold : Nat)
    (waiting : List LinkId) (l : LinkId) (st : LinkState) :
    s.Keeps (s.selfCheckAnswer q prio port units threshold waiting l st) := by
  unfold State.selfCheckAnswer
  refine .ite (fun _ => ?_) fun _ => s.endOrder_keeps _ _ _
  exact .ite (fun _ => .trans (s.setPhase_keeps q _) {}) fun _ => s.setPhase_keeps _ _

theorem State.answerArrives_keeps (l : LinkId) (q : Word) (a : Answer) : s.Keeps (s.answerArrives l q a) := by
  unfold State.answerArrives
  split
  · split
    · exact s.actedAnswer_keeps _ _ _ _ _ _ _ _
    · exact s.actedAnswer_keeps _ _ _ _ _ _ _ _
    · exact s.endOrder_keeps _ _ _
    · exact s.selfCheckAnswer_keeps _ _ _ _ _ _ _ _
    · exact s.awaitCheck_keeps _ _ _ _ _
    · exact .refl s
  · exact .refl s

theorem State.requalArrives_keeps (q : Word) (snap : QualSnapshot) : s.Keeps (s.requalArrives q snap) := by
  unfold State.requalArrives
  split
  · exact s.endOrder_keeps _ _ _
  · exact .refl s

theorem State.loadReport_keeps (r : LoadReport) : s.Keeps (s.loadReport r) := by
  unfold State.loadReport
  dsimp only
  split
  · exact s.endOrder_keeps _ _ _
  · exact s.endOrder_keeps _ _ _
  · exact .refl s

theorem State.coalesceOne_keeps (notify : Bool) : s.Keeps (s.coalesceOne notify) := by
  unfold State.coalesceOne
  exact .ite (fun _ => {}) fun _ => .ite (fun _ => {}) fun _ => {}

theorem State.doneLands_keeps (ref : Option Word) (notify : Bool) : s.Keeps (s.doneLands ref notify) := by
  have counted : s.Keeps { s with ordersCompleted := s.ordersCompleted + 1 }.statusChange :=
    .trans {} (State.statusChange_keeps _)
  refine .trans ?_ (State.coalesceOne_keeps _ notify)
  cases ref with
  | some q => exact (counted.trans (State.freeCtx_keeps _ q)).trans (State.releaseFences_keeps _ q)
  | none => exact counted

end Sys2Proof.Machine
end


section
/-! PROOFS. What the engines, the Plan Cache, the Discrepancy Log Unit, the Record Writer and the part states keep, and
with them every command: `exec_keeps`. -/

namespace Sys2Proof.Machine

-- One declaration at a time: the threads of a parallel elaboration exceed the memory of the check.
set_option Elab.async false

variable (s : State)

/-! ## Engines (R111 to R122) -/

theorem State.enginesOk_congr {s t : State} (h : t.engines = s.engines) : t.enginesOk ↔ s.enginesOk := by
  unfold State.enginesOk State.engine
  rw [h]

@[simp] theorem State.endOrder_engines (q : Word) (st : Status) (result : List Byte) :
    (s.endOrder q st result).engines = s.engines := by rw [← congrArg State.engines (s.endOrder_rest q st result)]

@[simp] theorem State.onLink_engines (l : LinkId) (f : Env → Link → Link) : (s.onLink l f).engines = s.engines :=
  (s.onLink_only l f).engines

/-- Who waits after an insertion is the new entry or waited before (R112). -/
theorem mem_waitInsert (w x : WaitEntry) (vs : List WaitEntry) : x ∈ waitInsert w vs ↔ x = w ∨ x ∈ vs := by
  induction vs with
  | nil => simp [waitInsert]
  | cons v vs ih =>
    unfold waitInsert
    split
    · simp
    · simp only [List.mem_cons, ih]
      tauto

theorem State.beginSelfCheck_keeps (e : EngineId) (c : SelfCheck) (waiting : List WaitEntry)
    (hc : s.enginesOk → engineOf c.port = e) (hw : s.enginesOk → ∀ w ∈ waiting, w.who.on e) :
    s.Keeps (s.beginSelfCheck e c waiting) := by
  refine .trans ?_ (State.onLink_keeps _ _ fun _ lk => lk.selfCheckBegins_keeps)
  refine .trans ?_ (State.onLink_keeps _ _ fun _ lk => lk.selfCheckBegins_keeps)
  refine (s.putEngine_keeps e _ fun ok => ⟨fun o ho => ?_, hw ok⟩).trans {}
  obtain rfl := Option.some.inj ho
  exact hc ok

theorem State.grantLink_keeps (e : EngineId) (l : LinkId) (waiting : List WaitEntry)
    (hl : s.enginesOk → engineOfLink l = e) (hw : s.enginesOk → ∀ w ∈ waiting, w.who.on e) :
    s.Keeps (s.grantLink e l waiting) := by
  refine (s.putEngine_keeps e _ fun ok => ⟨fun o ho => ?_, hw ok⟩).trans (State.send_keeps _ _ _)
  obtain rfl := Option.some.inj ho
  exact hl ok

/-- A release keeps the invariants where the list it grants from is on the engine's ports. -/
theorem State.grantNext_keeps (e : EngineId) (list : List WaitEntry) (h : s.enginesOk → ∀ w ∈ list, w.who.on e) :
    s.Keeps (s.grantNext e list) := by
  induction list generalizing s with
  | nil =>
    unfold State.grantNext
    exact s.putEngine_keeps e _ fun _ => ⟨nofun, nofun⟩
  | cons w rest ih =>
    have head : s.enginesOk → w.who.on e := fun ok => h ok w (by simp)
    have tail : s.enginesOk → ∀ v ∈ rest, v.who.on e := fun ok v hv => h ok v (by simp [hv])
    obtain ⟨who, prio⟩ := w
    unfold State.grantNext
    cases who with
    | link l => exact s.grantLink_keeps e l rest head tail
    | self c =>
      refine .ite (fun _ => s.beginSelfCheck_keeps e c rest head tail) fun _ => ?_
      exact (s.endOrder_keeps _ _ _).trans (ih _ fun ok => tail ((State.enginesOk_congr (by simp)).1 ok))

theorem State.engineAsk_keeps (e : EngineId) (w : WaitEntry) (h : w.who.on e) : s.Keeps (s.engineAsk e w) := by
  have list : s.enginesOk → ∀ v ∈ waitInsert w (s.engine e).waiting, v.who.on e := fun ok v hv => by
    rcases (mem_waitInsert _ _ _).1 hv with rfl | hv
    · exact h
    · exact (ok e).2 v hv
  unfold State.engineAsk
  split
  · exact s.grantNext_keeps e _ list
  all_goals exact s.putEngine_keeps e _ fun ok => ⟨(ok e).1, list ok⟩

theorem State.selfCheckAsk_keeps (c : SelfCheck) : s.Keeps (s.selfCheckAsk c) := by
  unfold State.selfCheckAsk
  exact .ite (fun _ => s.endOrder_keeps _ _ _) fun _ => s.engineAsk_keeps _ _ rfl

theorem State.engineDeparts_keeps (e : EngineId) (l : LinkId) : s.Keeps (s.engineDeparts e l) := by
  unfold State.engineDeparts
  refine .ite (fun _ => s.grantNext_keeps e _ fun ok w hw => ?_) fun _ =>
    s.putEngine_keeps e _ fun ok => ⟨(ok e).1, fun w hw => ?_⟩
  · exact (ok e).2 w (List.mem_of_mem_filter hw)
  · exact (ok e).2 w (List.mem_of_mem_filter hw)

/-- A run that begins is owned as it was granted. -/
theorem Engine.running_on {e : EngineId} {o : Owner} {waiting : List WaitEntry} (ho : o.on e)
    (hw : ∀ w ∈ waiting, w.who.on e) (seed : Word) (window : Nat) (place : Vector (Option Nat) 8) :
    Engine.on { Engine.running o waiting seed window with place := place } e :=
  ⟨fun _ hx => Option.some.inj hx ▸ ho, hw⟩

theorem State.tryRunStart_keeps (l : LinkId) : s.Keeps (s.tryRunStart l) := by
  unfold State.tryRunStart
  refine .ite (fun _ => ?_) fun _ => .refl s
  exact (s.putEngine_keeps _ _ fun ok => Engine.running_on (o := .link l) (by exact rfl) (ok _).2 _ _ _).trans
    (State.onLink_keeps _ l fun e lk => lk.startRun_keeps e)

theorem State.takeGrant_keeps (l : LinkId) : s.Keeps (s.takeGrant l) := by
  unfold State.takeGrant
  refine .ite (fun _ => .trans ?_ (State.tryRunStart_keeps _ l)) fun _ => .refl s
  refine .trans (t := s.seedDrawn) {} (State.onLink_keeps _ l fun _ lk => ?_)
  exact .trans .same (Link.queuePage_keeps _ _)

theorem State.endLinkRun_keeps (e : EngineId) (l : LinkId) : s.Keeps (s.endLinkRun e l) :=
  (s.send_keeps l _).trans (State.grantNext_keeps _ e _ fun ok => (ok e).2)

theorem State.leaveSelfCheck_keeps (e : EngineId) (p : PortId) (waiting : List WaitEntry)
    (h : s.enginesOk → ∀ w ∈ waiting, w.who.on e) : s.Keeps (s.leaveSelfCheck e p waiting) := by
  refine .trans ?_ (State.onLink_keeps _ _ fun e lk => lk.afterSelfCheck_keeps e)
  refine .trans ?_ (State.onLink_keeps _ _ fun e lk => lk.afterSelfCheck_keeps e)
  refine .trans ?_ (State.grantNext_keeps _ e waiting fun ok => h ((State.enginesOk_congr (by simp)).1 ok))
  exact (s.onLink_keeps _ fun _ lk => lk.selfCheckFlagOff_keeps).trans
    (State.onLink_keeps _ _ fun _ lk => lk.selfCheckFlagOff_keeps)

theorem State.endSelfRun_keeps (e : EngineId) (c : SelfCheck) : s.Keeps (s.endSelfRun e c) :=
  (s.endOrder_keeps _ _ _).trans
    (State.leaveSelfCheck_keeps _ e _ _ fun ok => ((State.enginesOk_congr (by simp)).1 ok e).2)

theorem State.endRun_keeps (e : EngineId) : s.Keeps (s.endRun e) := by
  unfold State.endRun
  split
  · exact s.endLinkRun_keeps e _
  · exact s.endSelfRun_keeps e _
  · exact .refl s

theorem State.startBlock_keeps (e : EngineId) (lane : Lane) : s.Keeps (s.startBlock e lane) := by
  have started : s.Keeps (s.putEngine e ((s.engine e).startLane lane)) := s.putEngine_keeps e _ fun ok => by
    unfold Engine.startLane
    split
    · exact ok e
    · exact ok e
  unfold State.startBlock
  split
  · exact .ite (fun _ => started) fun _ => .refl s
  · exact .ite (fun _ => started) fun _ => .refl s
  · exact .refl s

theorem State.countTestWord_keeps (e : EngineId) (o : Owner) (seed : Word) (lane : Lane) (place : Nat)
    (word : BitVec 64) : s.Keeps (s.countTestWord e o seed lane place word) := by
  have counted : ∀ differs, s.Keeps (s.putEngine e (((s.engine e).hearWord lane place).countWord lane differs)) :=
    fun _ => s.putEngine_keeps e _ fun ok => ok e
  unfold State.countTestWord
  dsimp only
  exact .ite (fun _ => .ite (fun _ => (counted _).trans (State.endRun_keeps _ e)) fun _ => counted _) fun _ => .refl s

theorem State.testWord_keeps (e : EngineId) (lane : Lane) (word : BitVec 64) : s.Keeps (s.testWord e lane word) := by
  unfold State.testWord
  split
  · refine .ite (fun _ => ?_) fun _ => .refl s
    split
    · exact s.putEngine_keeps e _ fun ok => ok e
    · exact s.countTestWord_keeps e _ _ lane _ word
    · exact .refl s
    · exact .refl s
  all_goals exact .refl s

theorem State.abortSelf_keeps (e : EngineId) : s.Keeps (s.abortSelf e) := by
  have list : s.enginesOk → ∀ w ∈ (s.engine e).waiting.filter fun w => !w.who.isSelf, w.who.on e :=
    fun ok w hw => (ok e).2 w (List.mem_of_mem_filter hw)
  unfold State.abortSelf
  dsimp only
  split
  · exact s.leaveSelfCheck_keeps e _ _ list
  all_goals exact s.putEngine_keeps e _ fun ok => ⟨(ok e).1, list ok⟩

/-! ## The Plan Cache -/

theorem State.beginLoad_keeps : s.Keeps s.beginLoad := by
  unfold State.beginLoad
  split
  · exact .ite (fun _ => .refl s) fun _ => {}
  · exact .refl s

theorem State.readOn_keeps (ld : Load) : s.Keeps (s.readOn ld) := {}

theorem State.clearObs_keeps (p : PortId) : s.Keeps (s.clearObs p) :=
  (s.onLink_keeps _ fun _ lk => lk.clearObs_keeps).trans (State.onLink_keeps _ _ fun _ lk => lk.clearObs_keeps)

theorem State.applyRow_keeps (sc : Scope) (r : PortId × RowState) : s.Keeps (s.applyRow sc r) := by
  refine .trans ?_ (State.sendAll_keeps _ _ _)
  refine .trans (t := { s with rows := s.rows.set r.1 r.2 }) {} ?_
  exact .ite (fun _ => .refl _) fun _ => State.clearObs_keeps _ _

theorem State.planReconciled_keeps : s.Keeps s.planReconciled := by
  have queued : ∀ (t : State) (stage : Option LoadStage), t.Keeps (State.queueMarked { t with loading := stage } .loading) :=
    fun t stage => .trans {} (State.queueMarked_keeps _ _)
  exact s.markAll_keeps.trans (queued s.markAll _)

theorem State.checkReconciled_keeps : s.Keeps s.checkReconciled := by
  unfold State.checkReconciled
  exact .ite (fun _ => s.planReconciled_keeps) fun _ => .refl s

theorem State.loadApplied_keeps (ld : Load) (sc : Scope) (changed bad : Nat) :
    s.Keeps (s.loadApplied ld sc changed bad) := by
  unfold State.loadApplied
  cases ld.req
  case start => exact .trans {} (State.checkReconciled_keeps _)
  all_goals exact {}

theorem State.applyLoad_keeps (ld : Load) : s.Keeps (s.applyLoad ld) := by
  refine .trans ?_ (State.loadApplied_keeps _ _ _ _ _)
  exact (State.Keeps.foldl (fun s r => s.applyRow_keeps _ r) _ s).trans {}

theorem State.rowRead_keeps (ld : Load) (p : PortId) (rest : List PortId) (v : RowState) :
    s.Keeps (s.rowRead ld p rest v) := by
  unfold State.rowRead
  exact .ite (fun _ => s.applyLoad_keeps _) fun _ => s.readOn_keeps _

theorem State.rowData_keeps (ld : Load) (p : PortId) (rest : List PortId) (bs : List Byte) :
    s.Keeps (s.rowData ld p rest bs) := by
  unfold State.rowData
  exact .ite (fun _ => .ite (fun _ => s.readOn_keeps _) fun _ => s.rowRead_keeps _ _ _ _) fun _ => s.rowRead_keeps _ _ _ _

theorem State.rowFault_keeps (ld : Load) (p : PortId) : s.Keeps (s.rowFault ld p) := by
  refine .trans ?_ (State.takeFault_keeps _ _ _ _)
  unfold State.loadFaulted
  cases ld.req <;> exact {}

theorem State.planReadReturns_keeps (data : Option (Vector Byte 64)) : s.Keeps (s.planReadReturns data) := by
  unfold State.planReadReturns
  refine .ite (fun _ => {}) fun _ => ?_
  split
  · split
    · split
      · exact s.rowData_keeps _ _ _ _
      · exact s.rowFault_keeps _ _
    · exact .refl s
  · exact .refl s

theorem State.abandonLoad_keeps : s.Keeps s.abandonLoad := by
  unfold State.abandonLoad
  split
  · exact {}
  · exact .refl s

/-! ## The discrepancy log -/

/-- A change of one entry at most adds one to a count. -/
theorem countP_set_le {α : Type} (p : α → Bool) (xs : List α) (n : Nat) (a : α) :
    (xs.set n a).countP p ≤ xs.countP p + if p a then 1 else 0 := by
  by_cases h : n < xs.length
  · rw [List.countP_set h]
    omega
  · rw [List.set_eq_of_length_le (Nat.le_of_not_lt h)]
    omega

theorem State.logOk_iff : s.logOk ↔ ∀ l, s.log.countP (heldBy l) ≤ 1 := by
  simp only [State.logOk, List.countP_eq_length_filter]

/-- The place found is of an entry that meets the test, and none before it does. -/
theorem placeOf_some {α : Type} {test : α → Bool} {xs : List α} {n : Nat} (h : placeOf test xs = some n) :
    (∃ x, xs[n]? = some x ∧ test x = true) ∧ ∀ m < n, ∀ x, xs[m]? = some x → test x = false := by
  induction xs generalizing n with
  | nil => simp [placeOf] at h
  | cons x xs ih =>
    unfold placeOf at h
    split at h
    · next hx =>
      obtain rfl := Option.some.inj h
      exact ⟨⟨x, rfl, hx⟩, by simp⟩
    · next hx =>
      obtain ⟨k, hk, rfl⟩ := Option.map_eq_some_iff.1 h
      obtain ⟨found, before⟩ := ih hk
      refine ⟨by simpa using found, fun m hm y hy => ?_⟩
      cases m with
      | zero =>
        obtain rfl : x = y := by simpa using hy
        simpa using hx
      | succ m => exact before m (by omega) y (by simpa using hy)

theorem placeOf_none {α : Type} {test : α → Bool} {xs : List α} (h : placeOf test xs = none) :
    ∀ x ∈ xs, test x = false := by
  induction xs with
  | nil => simp
  | cons x xs ih =>
    unfold placeOf at h
    split at h
    · simp at h
    · next hx =>
      rw [Option.map_eq_none_iff] at h
      intro y hy
      rcases List.mem_cons.1 hy with rfl | hy
      · simpa using hx
      · exact ih h y hy

/-- A new held map keeps the invariants where it holds one record a link, with writes that are no status entries. -/
theorem State.setLog_keeps (log : List (Option HeldRec)) (writes : List QEntry)
    (hl : s.logOk → ∀ l, log.countP (heldBy l) ≤ 1) (hw : ∀ q ∈ writes, q.kind.isStatus = false) :
    s.Keeps (s.setLog log writes) := by
  have set : s.Keeps { s with log := log, writeQueue := s.writeQueue ++ writes } :=
    { log := fun ok => (State.logOk_iff _).2 (hl ok)
      status := State.statusOk_append writes rfl rfl hw }
  unfold State.setLog
  exact .ite (fun _ => set) fun _ => set.trans (State.statusChange_keeps _)

theorem State.logDiscrepancy_keeps (l : LinkId) (d : Discrepancy) : s.Keeps (s.logDiscrepancy l d) := by
  unfold State.logDiscrepancy
  split
  case h_1 n hn =>
    split
    case h_1 h hh =>
      refine s.setLog_keeps _ _ (fun ok k => ?_) (by simp [QKind.isStatus])
      obtain ⟨⟨x, hx, _⟩, _⟩ := placeOf_some hn
      obtain ⟨hlt, hget⟩ := List.getElem?_eq_some_iff.1 hx
      have hxh : s.log[n] = some h := by simpa [List.getD_eq_getElem?_getD, hx, hget] using hh
      have same : heldBy k (some (h.collapse d)) = heldBy k (some h) := rfl
      have le := (State.logOk_iff s).1 ok k
      rw [List.countP_set hlt, hxh, same]
      have pos : heldBy k (some h) = true → 0 < s.log.countP (heldBy k) := fun hk =>
        List.countP_pos_iff.2 ⟨s.log[n], List.getElem_mem _, by rw [hxh]; exact hk⟩
      split
      · have := pos ‹_›
        omega
      · omega
    case h_2 => exact .refl s
  case h_2 hnone =>
    split
    · refine s.setLog_keeps _ _ (fun ok k => (countP_set_le _ _ _ _).trans ?_) (by simp [QKind.isStatus])
      by_cases hk : heldBy k (some (HeldRec.fill l d)) = true
      · have same : l = k := of_decide_eq_true hk
        subst same
        rw [if_pos hk, List.countP_eq_zero.2 fun x hx => by
          rw [placeOf_none hnone x hx]; exact Bool.false_ne_true]
      · rw [if_neg hk]
        exact (State.logOk_iff s).1 ok k
    · exact s.notify_keeps _

theorem State.discrepancyArrives_keeps (l : LinkId) (d : Discrepancy) : s.Keeps (s.discrepancyArrives l d) := by
  unfold State.discrepancyArrives
  exact .ite (fun _ => .refl s) fun _ => s.logDiscrepancy_keeps l d

theorem State.releaseTaken_keeps (n : Nat) : s.Keeps (s.releaseTaken n) := by
  unfold State.releaseTaken
  split
  · exact {}
  · exact {}
  · refine .trans (t := s.setLog (s.log.set n none) [⟨.release, [s.logWordStep n false]⟩])
      (s.setLog_keeps _ _ (fun ok l => (countP_set_le _ _ _ _).trans ?_) (by simp [QKind.isStatus])) {}
    simpa [heldBy] using (State.logOk_iff s).1 ok l

theorem State.clearLog_keeps (length : Nat) : s.Keeps (s.clearLog length) := by
  refine s.setLog_keeps _ _ (fun _ l => ?_) fun q hq => ?_
  · rw [List.countP_eq_zero.2 fun x hx => by simp [List.eq_of_mem_replicate hx, heldBy]]
    exact Nat.zero_le 1
  · obtain ⟨n, _, rfl⟩ := List.mem_map.1 hq
    rfl

/-! ## The Record Writer -/

/-- The queue's head is no longer, or not yet, being written. -/
theorem State.statusOk_idle {s t : State} (hq : t.writeQueue = s.writeQueue) (hs : s.headBegun = false)
    (ht : t.headBegun = false) (h : s.statusOk) : t.statusOk := by
  unfold State.statusOk at h ⊢
  rw [hq, ht]
  rwa [hs] at h

theorem State.recordFault_keeps (l : LinkId) (addr : Nat) (k : FaultKind) (h : s.headBegun = false) :
    s.Keeps (s.recordFault l addr k) := by
  refine .trans ?_ (State.takeFault_keeps _ _ _ _)
  exact { dirty := fun nodup => List.nodup_cons.2 ⟨by simp, nodup.filter _⟩
          status := State.statusOk_idle rfl h rfl }

theorem State.queueFault_keeps (addr : Nat) (k : FaultKind)
    (h : s.statusOk → State.statusOk { s with writing := none }) : s.Keeps (s.queueFault addr k) :=
  .trans (t := { s with writing := none, retry := some .queue }) { status := h } (State.takeFault_keeps _ _ _ _)

theorem State.issueStep_keeps (l : LinkId) (base : Nat) (gen : BitVec 16) (body : List Byte) (carried : LinkState)
    (counts : Bool) (step : Fin 3) (h : s.headBegun = false) :
    s.Keeps (s.issueStep l base gen body carried counts step) := by
  unfold State.issueStep
  exact .ite (fun _ => { status := State.statusOk_idle rfl h rfl }) fun _ => s.recordFault_keeps _ _ _ h

theorem State.beginRecord_keeps (h : s.headBegun = false) : s.Keeps s.beginRecord := by
  unfold State.beginRecord
  split
  · next l rest hd =>
    refine .trans ?_ (State.issueStep_keeps { s with dirty := rest, lastSource := .dirtySet, retry := none }
      _ _ _ _ _ _ _ h)
    refine { dirty := fun nodup => ?_ }
    have nodup : (l :: rest).Nodup := hd ▸ nodup
    exact (List.nodup_cons.1 nodup).2
  · exact .refl s

theorem State.sampled_keeps (q : QEntry) : s.Keeps (s.sampled q) := by
  unfold State.sampled
  exact .ite (fun _ => {}) fun _ => .refl s

@[simp] theorem State.sampled_writing (q : QEntry) : (s.sampled q).writing = s.writing := by
  unfold State.sampled
  split <;> rfl

@[simp] theorem State.sampled_writeQueue (q : QEntry) : (s.sampled q).writeQueue = s.writeQueue := by
  unfold State.sampled
  split <;> rfl

/-- The head of the queue begins: those behind it are among those that waited. -/
theorem State.statusOk_begin {s t : State} {steps : List WStep} (hq : t.writeQueue = s.writeQueue)
    (hs : s.headBegun = false) (ht : t.writing = some (.queue steps)) (h : s.statusOk) : t.statusOk := by
  have begun : t.headBegun = true := by
    unfold State.headBegun
    rw [ht]
  unfold State.statusOk at h ⊢
  rw [hq, begun]
  rw [hs] at h
  exact (((List.drop_sublist 1 s.writeQueue).filter _).length_le).trans h

theorem State.headBegun_none {s : State} (h : s.writing = none) : s.headBegun = false := by
  unfold State.headBegun
  rw [h]

theorem State.beginEntry_keeps (h : s.writing = none) : s.Keeps s.beginEntry := by
  unfold State.beginEntry
  split
  case h_2 => exact .refl s
  case h_1 q rest hq =>
    have idle : (s.sampled q).headBegun = false := State.headBegun_none (by simpa using h)
    refine (s.sampled_keeps q).trans ?_
    dsimp only
    generalize s.sampled q = s at idle ⊢
    split
    · refine .ite (fun _ => { status := State.statusOk_begin rfl idle rfl }) fun _ => .trans (t := { s with
        lastSource := .queue, retry := none }) {} (State.queueFault_keeps _ _ _ ?_)
      exact State.statusOk_idle rfl idle rfl
    · exact { status := State.statusOk_begin rfl idle rfl }

theorem State.beginWrite_keeps : s.Keeps s.beginWrite := by
  unfold State.beginWrite
  refine .ite (fun h => ?_) fun _ => .refl s
  have none := Option.isNone_iff_eq_none.1 h.1
  split
  · exact s.beginRecord_keeps (State.headBegun_none none)
  · exact s.beginEntry_keeps none
  · exact .refl s

theorem State.land_keeps (w : WStep) {ws : List WStep} (h : w ∈ ws) : s.Keeps (s.land w) ws :=
  { mem := .step .refl h }

theorem State.noteWritten_keeps (l : LinkId) (carried : LinkState) : s.Keeps (s.noteWritten l carried) := by
  unfold State.noteWritten
  dsimp only
  split
  · exact {}
  · exact .ite (fun _ => {}) fun _ => {}

theorem State.loadingWritten_keeps (l : LinkId) (counts : Bool) : s.Keeps (s.loadingWritten l counts) := by
  unfold State.loadingWritten
  split
  case h_1 => exact .ite (fun _ => {}) fun _ => .refl s
  all_goals exact .refl s

theorem State.recordDone_keeps (l : LinkId) (gen : BitVec 16) (carried : LinkState) (counts : Bool)
    (h : s.headBegun = false) : s.Keeps (s.recordDone l gen carried counts) := by
  refine .trans (t := { s with writing := none }) { status := State.statusOk_idle rfl h rfl } ?_
  exact (((State.putLink_keeps _ l _ .same).trans (State.noteWritten_keeps _ _ _)).trans
    (State.loadingWritten_keeps _ _ _)).trans (State.checkRunning_keeps _)

theorem State.recordLands_keeps (l : LinkId) (base : Nat) (gen : BitVec 16) (body : List Byte) (carried : LinkState)
    (counts : Bool) (step : Fin 3) (ended : Bool) (h : s.headBegun = false) :
    s.Keeps (s.recordLands l base gen body carried counts step ended) [recordStepAt base gen body step] := by
  refine (s.land_keeps _ (List.mem_singleton.2 rfl)).trans (.quiet ?_)
  have idle : (s.land (recordStepAt base gen body step)).headBegun = false := h
  unfold State.recordLands
  generalize s.land (recordStepAt base gen body step) = s at idle ⊢
  dsimp only
  split
  · exact .ite (fun _ => { status := State.statusOk_idle rfl idle rfl }) fun _ => s.issueStep_keeps _ _ _ _ _ _ _ idle
  · exact .ite (fun _ => { status := State.statusOk_idle rfl idle rfl }) fun _ => s.issueStep_keeps _ _ _ _ _ _ _ idle
  · exact s.recordDone_keeps _ _ _ _ idle

theorem State.stepsInProgress_record {s : State} {l : LinkId} {base : Nat} {gen : BitVec 16} {body : List Byte}
    {carried : LinkState} {counts ended : Bool} {step : Fin 3}
    (h : s.writing = some (.record l base gen body carried counts step ended)) :
    s.stepsInProgress = [recordStepAt base gen body step] := by
  unfold State.stepsInProgress
  rw [h]

theorem State.stepsInProgress_queue {s : State} {steps : List WStep} (h : s.writing = some (.queue steps)) :
    s.stepsInProgress = steps := by
  unfold State.stepsInProgress
  rw [h]

theorem State.stepsInProgress_finishing {s : State} {w : WStep} (h : s.writing = some (.finishing w)) :
    s.stepsInProgress = [w] := by
  unfold State.stepsInProgress
  rw [h]

theorem State.recordStepEnds_keeps (err : Bool) : s.Keeps (s.recordStepEnds err) s.stepsInProgress := by
  unfold State.recordStepEnds
  split
  case h_1 hw =>
    rw [State.stepsInProgress_record hw]
    have idle : s.headBegun = false := by
      unfold State.headBegun
      rw [hw]
    refine .ite (fun _ => .quiet ?_) fun _ => s.recordLands_keeps _ _ _ _ _ _ _ _ idle
    exact .ite (fun _ => { status := State.statusOk_idle rfl idle rfl }) fun _ => s.recordFault_keeps _ _ _ idle
  all_goals exact .refl s

/-- Steps that land one after another change host memory alone, by steps among them. -/
theorem State.landSteps_fst (err : Option Nat) (ws : List WStep) :
    ∃ m, Lands ws s.hostMem m ∧ (s.landSteps err ws).1 = { s with hostMem := m } := by
  induction ws generalizing s err with
  | nil => exact ⟨_, .refl, rfl⟩
  | cons w ws ih =>
    unfold State.landSteps
    have more : ∀ e, ∃ m, Lands (w :: ws) s.hostMem m ∧ ((s.land w).landSteps e ws).1 = { s with hostMem := m } := by
      intro e
      obtain ⟨m, hm, eq⟩ := ih (s.land w) e
      exact ⟨m, .trans (.step .refl (by simp)) (hm.mono (by simp)), eq⟩
    split
    · exact ⟨_, .refl, rfl⟩
    · split
      · exact ⟨_, .refl, rfl⟩
      · exact more _
      · exact more _

theorem State.statusLands_keeps (m : StatusMark) : s.Keeps (s.statusLands m) := by
  refine .trans (t := { s with statusGen := s.statusGen + 2 }) {} ?_
  unfold State.statusLands
  cases m
  · exact {}
  · dsimp only
    unfold State.loadingStatus
    split
    case h_1 => exact {}
    all_goals exact {}
  · exact .ite (fun _ => State.enterIdle_keeps _) fun _ => {}

theorem State.entryLands_keeps (k : QKind) : s.Keeps (s.entryLands k) := by
  unfold State.entryLands
  split
  case h_7 => exact s.notify_keeps _
  case h_8 => exact s.doneLands_keeps _ _
  case h_9 => exact s.statusLands_keeps _
  all_goals exact .refl s

theorem State.headLands_keeps (h : s.headBegun = true) : s.Keeps s.headLands := by
  unfold State.headLands
  split
  · next q rest hq =>
    refine .trans ?_ (State.checkQuiesce_keeps _)
    refine .trans ?_ (State.checkRunning_keeps _)
    refine .trans ?_ (State.entryLands_keeps _ _)
    refine { status := fun ok => ?_ }
    unfold State.statusOk at ok
    rw [h, hq] at ok
    exact ok
  · next hq =>
    refine { status := fun _ => ?_ }
    change (List.filter _ s.writeQueue).length ≤ 1
    simp [hq]

/-- The head entry counts again as one that has not begun, and one status block entry waits at most (R193). -/
theorem State.unbegin_statusOk (h : s.headBegun = true) (ok : s.statusOk) :
    State.statusOk { s.unbegin with writing := none } := by
  change (s.unbegin.writeQueue.filter fun q => q.kind.isStatus).length ≤ 1
  unfold State.statusOk at ok
  rw [if_pos h] at ok
  unfold State.unbegin
  split
  · simp [QKind.isStatus, List.filter_filter]
  · next hno =>
    cases hq : s.writeQueue with
    | nil => simp
    | cons q rest =>
      obtain ⟨kind, steps⟩ := q
      rw [hq] at ok
      cases kind
      case status m => exact absurd hq (hno m steps rest)
      all_goals exact ok

theorem State.unbegin_keeps (h : s.headBegun = true) : s.Keeps s.unbegin := by
  unfold State.unbegin
  split
  · refine { status := fun _ => ?_ }
    change (List.filter _ (if s.headBegun = true then _ else _)).length ≤ 1
    rw [if_pos h]
    simp [List.filter_filter]
  · exact .refl s

theorem State.unbeginFault_keeps (addr : Nat) (k : FaultKind) (h : s.headBegun = true) :
    s.Keeps (s.unbegin.queueFault addr k) := by
  refine .trans (t := { s.unbegin with writing := none, retry := some .queue }) ?_ (State.takeFault_keeps _ _ _ _)
  exact { s.unbegin_keeps h with status := s.unbegin_statusOk h }

theorem State.entryEnds_keeps (err : Option Nat) : s.Keeps (s.entryEnds err) s.stepsInProgress := by
  unfold State.entryEnds
  split
  case h_1 steps hw =>
    rw [State.stepsInProgress_queue hw]
    have begun : s.headBegun = true := by
      unfold State.headBegun
      rw [hw]
    obtain ⟨m, hm, eq⟩ := s.landSteps_fst err steps
    refine .trans (t := { s with hostMem := m }) { mem := hm } (.quiet ?_)
    have begun' : State.headBegun { s with hostMem := m } = true := begun
    generalize ({ s with hostMem := m } : State) = landed at eq begun' ⊢
    split
    · next t ht =>
      obtain rfl : t = landed := by rw [← eq, ht]
      exact t.headLands_keeps begun'
    · next t addr k ht =>
      obtain rfl : t = landed := by rw [← eq, ht]
      exact t.unbeginFault_keeps addr k begun'
  case h_2 w hw =>
    rw [State.stepsInProgress_finishing hw]
    have idle : s.headBegun = false := by
      unfold State.headBegun
      rw [hw]
    have landed : (s.land w).headBegun = false := idle
    refine .ite (fun _ => .quiet { status := State.statusOk_idle rfl idle rfl }) fun _ => ?_
    exact (s.land_keeps w (List.mem_singleton.2 rfl)).trans (.quiet { status := State.statusOk_idle rfl landed rfl })
  all_goals exact .refl s

end Sys2Proof.Machine
end


section
/-! PROOFS. What the part states and the commands keep, and the statements about every step: the invariants, host memory,
the queue of commands. -/

namespace Sys2Proof.Machine

-- One declaration at a time: the threads of a parallel elaboration exceed the memory of the check.
set_option Elab.async false

variable (s : State)

/-! ## Part states (R184 to R188) -/

theorem State.badAnchor_keeps (c : AnchorCause) : s.Keeps (s.badAnchor c) := s.enterIdle_keeps.trans {}

theorem State.startLoading_keeps : s.Keeps s.startLoading := by
  unfold State.startLoading
  exact .ite (fun _ => {}) fun _ => .trans {} (State.badAnchor_keeps _ _)

theorem State.changeOwnTags_keeps : s.Keeps s.changeOwnTags :=
  .foldl (fun s l => s.onLink_keeps l fun e lk => lk.ownTagChanges_keeps e) _ s

theorem State.acceptAnchor_keeps (a : Anchor) : s.Keeps (s.acceptAnchor a) := by
  unfold State.acceptAnchor
  dsimp only
  exact .ite (fun _ => .trans (.trans {} (State.clearLog_keeps _ _)) (State.changeOwnTags_keeps _)) fun _ =>
    .trans {} (State.clearLog_keeps _ _)

theorem State.anchorReadReturns_keeps (data : Option (Vector Byte 128)) : s.Keeps (s.anchorReadReturns data) := by
  unfold State.anchorReadReturns
  refine .ite (fun _ => {}) fun _ => ?_
  split
  · exact .trans {} (State.takeFault_keeps _ _ _ _)
  · split
    · exact s.acceptAnchor_keeps _
    · exact s.badAnchor_keeps _
  · exact .refl s
  · exact .refl s

theorem State.abandonAnchorRead_keeps : s.Keeps s.abandonAnchorRead := {}

theorem State.abandonStart_keeps : s.Keeps s.abandonStart := by
  unfold State.abandonStart
  dsimp only
  split
  · exact .ite (fun _ => .trans {} (State.abandonLoad_keeps _)) fun _ => {}
  · exact {}

theorem State.stopPart_keeps : s.Keeps s.stopPart := by
  have left : s.Keeps (if s.part = .loading then { (s.abandonAnchorRead.abandonStart) with loading := none } else s) :=
    .ite (fun _ => (s.abandonAnchorRead_keeps.trans (State.abandonStart_keeps _)).trans {}) fun _ => .refl s
  exact ((left.trans (State.changePart_keeps _ _)).trans (State.stopOrders_keeps _)).trans (State.checkQuiesce_keeps _)

theorem State.rereadSlots_keeps : s.Keeps s.rereadSlots := by
  have seqs : s.rereadSlots.contexts.map (·.seq) = s.contexts.map (·.seq) := by
    unfold State.rereadSlots
    rw [List.map_map]
    refine List.map_congr_left fun c _ => ?_
    simp only [Function.comp_apply]
    split <;> rfl
  exact { seqs := by rw [seqs] }

theorem State.resumeLoad_keeps : s.Keeps s.resumeLoad := by
  unfold State.resumeLoad
  split
  · exact {}
  · exact .refl s

theorem State.resumeAnchor_keeps : s.Keeps s.resumeAnchor := by
  unfold State.resumeAnchor
  split
  · exact {}
  all_goals exact .refl s

theorem State.resumePart_keeps (p : PartState) : s.Keeps (s.resumePart p) := by
  refine .trans ?_ (State.checkQuiesce_keeps _)
  refine .trans ?_ (State.resumeAnchor_keeps _)
  refine .trans ?_ (State.resumeLoad_keeps _)
  refine .trans ?_ (State.rereadSlots_keeps _)
  exact .trans {} (State.changePart_keeps _ _)

theorem State.clearControl_keeps : s.Keeps s.clearControl := by
  refine (s.abandonLoad_keeps.trans (State.abandonAnchorRead_keeps _)).trans ?_
  unfold State.clearControl
  generalize s.abandonLoad.abandonAnchorRead = s
  refine { log := fun _ l => ?_, seqs := List.nil_sublist _, dirty := fun _ => List.nodup_nil, status := fun _ => ?_ }
  · rw [List.filter_eq_nil_iff.2 fun x hx => ?_]
    · exact Nat.zero_le 1
    · obtain ⟨_, _, rfl⟩ := List.mem_map.1 hx
      exact Bool.false_ne_true
  · unfold State.statusOk
    split <;> exact Nat.zero_le 1

theorem State.controlReset_keeps : s.Keeps s.controlReset :=
  s.clearControl_keeps.trans (.foldl (fun s e => s.abortSelf_keeps e) _ _)

/-! ## The register window -/

theorem State.startWrite_keeps : s.Keeps s.startWrite := by
  unfold State.startWrite
  exact .ite (fun _ => s.startLoading_keeps) fun _ => .refl s

theorem State.stopWrite_keeps : s.Keeps s.stopWrite := by
  unfold State.stopWrite
  exact .ite (fun _ => s.stopPart_keeps) fun _ => .refl s

theorem State.resumeWrite_keeps : s.Keeps s.resumeWrite := by
  unfold State.resumeWrite
  split
  · exact s.resumePart_keeps _
  · exact .refl s

theorem State.postWrite_keeps (index : Byte) (prio : BitVec 3) : s.Keeps (s.postWrite index prio) := by
  unfold State.postWrite
  exact .ite (fun _ => {}) fun _ => .ite (fun _ => {}) fun _ => s.postTaken_keeps _ _

theorem State.recallWrite_keeps (index : Byte) : s.Keeps (s.recallWrite index) := by
  unfold State.recallWrite
  exact .ite (fun _ => {}) fun _ => .ite (fun _ => {}) fun _ => s.recallTaken_keeps _

theorem State.releaseWrite_keeps (index : Byte) : s.Keeps (s.releaseWrite index) := by
  unfold State.releaseWrite
  exact .ite (fun _ => {}) fun _ => .ite (fun _ => {}) fun _ => s.releaseTaken_keeps _

theorem State.controlWrite_keeps (value : Word) : s.Keeps (s.controlWrite value) := by
  unfold State.controlWrite
  split
  · exact s.startWrite_keeps
  · exact s.stopWrite_keeps
  · exact s.resumeWrite_keeps
  · exact s.controlReset_keeps
  · exact .refl s

theorem State.attentionWrite_keeps (value : Word) : s.Keeps (s.attentionWrite value) := by
  unfold State.attentionWrite
  split
  · exact s.postWrite_keeps _ _
  · exact s.recallWrite_keeps _
  · exact s.releaseWrite_keeps _
  · exact s.answerAttn_keeps _

theorem State.writeRegister_keeps (offset value : Word) : s.Keeps (s.writeRegister offset value) := by
  unfold State.writeRegister
  split
  · exact s.controlWrite_keeps _
  · exact s.attentionWrite_keeps _
  · exact {}
  · exact {}
  · exact .ite (fun _ => {}) fun _ => .refl s
  · exact .ite (fun _ => {}) fun _ => .refl s
  · exact .refl s

/-! ## Commands that take a message -/

theorem State.execSlotReadDone_keeps (seq : Word) (data : Option (Vector Byte 128)) {t : State}
    (h : execSlotReadDone seq data s = .next t) : s.Keeps t := by
  obtain rfl := Host.Outcome.next.inj h
  split
  · split
    · exact s.slotData_keeps _ _
    · exact s.slotFault_keeps _
  · exact .refl s

/-- A change of every link by one step of each. -/
theorem Bank.getElem_map {α β : Type} {n : Nat} (f : α → β) (v : Vector α n) (i : Nat) (h : i < n) :
    (Bank.map f v)[i] = f v[i] := by
  simp [Bank.map]

theorem State.execUptimeTick_keeps {t : State} (h : execUptimeTick s = .next t) : s.Keeps t := by
  obtain rfl := Host.Outcome.next.inj h
  have seqs : (s.contexts.map Ctx.tick).map (·.seq) = s.contexts.map (·.seq) := by
    rw [List.map_map]
    refine List.map_congr_left fun c _ => ?_
    simp only [Function.comp_apply, Ctx.tick]
    split <;> rfl
  refine { links := fun l => ?_, seqs := by rw [seqs], engines := fun ok e => ?_ }
  · change (s.link l).Keeps (Bank.map Link.tick s.links)[l.val]
    rw [Bank.getElem_map]
    exact (s.link l).tick_keeps
  · change Engine.on (Bank.map _ s.engines)[e.val] e
    rw [Bank.getElem_map]
    exact ok e

/-- The result of a command that answers with one state. -/
theorem State.Keeps.of_next {s t u : State} {ws : List WStep} (k : s.Keeps u ws)
    (h : (Host.Outcome.next u : Host.Outcome State Fault Refusal) = .next t) : s.Keeps t ws :=
  Host.Outcome.next.inj h ▸ k

/-- Every command but TAKE and the two resets keeps the invariants, and lands the steps of the write in progress only. -/
theorem exec_keeps (c : Instr) {t : State} (h : exec c s = .next t)
    (hc : c ≠ .take ∧ c ≠ .powerOn ∧ c ≠ .resetPin) :
    s.Keeps t (if endsWriteStep c then s.stepsInProgress else []) := by
  have onLink : ∀ (l : LinkId) {f : Env → Link → Link}, (∀ (e : Env) (lk : Link), lk.Keeps (f e lk)) →
      s.Keeps (s.onLink l f) := fun l _ hf => s.onLink_keeps l hf
  have timer : ∀ (p : Bool) {lk new : Link}, lk.Keeps new → lk.Keeps (if p = true then new else lk) := by
    intro p lk new k
    split
    · exact k
    · exact .refl lk
  cases c
  case take => exact absurd rfl hc.1
  case powerOn => exact absurd rfl hc.2.1
  case resetPin => exact absurd rfl hc.2.2
  case start => exact s.startWrite_keeps.of_next h
  case stop => exact s.stopWrite_keeps.of_next h
  case resume => exact s.resumeWrite_keeps.of_next h
  case cpReset => exact s.controlReset_keeps.of_next h
  case post => exact (s.postWrite_keeps _ _).of_next h
  case recallSlot => exact (s.recallWrite_keeps _).of_next h
  case release => exact (s.releaseWrite_keeps _).of_next h
  case attentionBadAction => exact (s.answerAttn_keeps _).of_next h
  case noticeClear => exact State.Keeps.of_next {} h
  case noticeEnableWrite => exact State.Keeps.of_next {} h
  case registerWrite => exact (s.writeRegister_keeps _ _).of_next h
  case anchorReadDone => exact (s.anchorReadReturns_keeps _).of_next h
  case loadBegin => exact s.beginLoad_keeps.of_next h
  case planRowReadDone => exact (s.planReadReturns_keeps _).of_next h
  case rowChange l =>
    refine State.Keeps.of_next ?_ h
    split
    · exact ((s.takeEvent_keeps l fun e lk => lk.reconcile_keeps e _ _).trans
        (State.onLink_keeps _ l fun e lk => lk.reconcileEnd_keeps e _ _)).trans (State.checkReconciled_keeps _)
    · exact .refl s
  case slotReadDone => exact s.execSlotReadDone_keeps _ _ h
  case writerBegin => exact s.beginWrite_keeps.of_next h
  case recordWriteStepDone => exact (s.recordStepEnds_keeps _).of_next h
  case queueWriteDone => exact (s.entryEnds_keeps _).of_next h
  case pageArrival => exact (onLink _ fun e lk => lk.pageArrives_keeps e _ _).of_next h
  case pageProcessorTurn =>
    refine State.Keeps.of_next ?_ h
    split
    · exact (onLink _ fun _ lk => lk.serve_keeps).trans {}
    · exact .refl s
  case pageTxStart => exact (onLink _ fun e lk => lk.txStart_keeps e _).of_next h
  case pageTxEnd => exact ((onLink _ fun e lk => lk.txEnd_keeps e _).trans (State.tryRunStart_keeps _ _)).of_next h
  case announceExpiry => exact (onLink _ fun e lk => timer _ (lk.announce_keeps e)).of_next h
  case keepaliveTimerExpiry =>
    exact (onLink _ fun e lk => timer _ (.trans .same (Link.queuePage_keeps _ _))).of_next h
  case byeCopyDue => exact (onLink _ fun _ lk => timer _ lk.byeCopy_keeps).of_next h
  case holdLimitExpiry => exact (onLink _ fun _ _ => .same).of_next h
  case holdForceLimitExpiry => exact (onLink _ fun _ lk => timer _ lk.holdForceEnds_keeps).of_next h
  case presenceDeadlineExpiry =>
    exact (onLink _ fun e lk => timer _ (.trans .same (Link.raise_keeps e _ _ _ _ _ _))).of_next h
  case absenceTimerExpiry => exact (onLink _ fun _ _ => timer _ .same).of_next h
  case pairingTimerExpiry => exact (onLink _ fun e lk => timer _ (lk.pairingExpires_keeps e)).of_next h
  case verifyTimerExpiry => exact (onLink _ fun e lk => timer _ (lk.retryable_keeps e _)).of_next h
  case trainTimerExpiry => exact (onLink _ fun e lk => timer _ (lk.retryable_keeps e _)).of_next h
  case qualifyWaitExpiry => exact (onLink _ fun e lk => timer _ (lk.retryable_keeps e _)).of_next h
  case peerResultWaitExpiry => exact (onLink _ fun e lk => timer _ (lk.retryable_keeps e _)).of_next h
  case backoffExpiry => exact (onLink _ fun e lk => timer _ (lk.move_keeps e _ _)).of_next h
  case peerSilentExpiry =>
    refine (onLink _ fun e lk => ?_).of_next h
    split
    · exact lk.failBy_keeps e _
    · exact .refl lk
  case burstIntervalEnd => exact (onLink _ fun _ _ => timer _ .same).of_next h
  case laneStreamError =>
    refine (onLink _ fun e lk => ?_).of_next h
    split
    · dsimp only
      split
      · exact .trans .same (Link.lose_keeps e _ _)
      · exact .same
    · exact .refl lk
  case lossOfSignal => exact (onLink _ fun e lk => lk.signalLost_keeps e _).of_next h
  case firstValidBeacon l =>
    refine State.Keeps.of_next ?_ h
    split
    · exact s.takeEvent_keeps l fun e lk => lk.firstReport_keeps e _
    · exact .refl s
  case quietBeacon l =>
    refine State.Keeps.of_next ?_ h
    split
    · refine s.takeEvent_keeps l fun e lk => ?_
      split
      · exact lk.quietHeard_keeps e _ _ _
      · exact .refl lk
    · exact .refl s
  case mapOutcome l =>
    refine State.Keeps.of_next ?_ h
    split
    · refine s.takeEvent_keeps l fun e lk => ?_
      split
      · exact .trans .same (Link.tryVerify_keeps e _)
      · exact .refl lk
    · exact .refl s
  case mapFinding l =>
    refine State.Keeps.of_next ?_ h
    split
    · refine s.takeEvent_keeps l fun e lk => ?_
      split
      · exact lk.fatal_keeps e _ _ _ _
      · exact .refl lk
    · exact .refl s
  case identReceived l =>
    refine State.Keeps.of_next ?_ h
    split
    · exact s.takeEvent_keeps l fun e lk => lk.identArrives_keeps e _ _ _ _ _ _ _
    · exact .refl s
  case trainReadyReceived l =>
    refine State.Keeps.of_next ?_ h
    split
    · exact s.takeEvent_keeps l fun e lk => lk.trainReadyArrives_keeps e _
    · exact .refl s
  case trainedReceived l =>
    refine State.Keeps.of_next ?_ h
    split
    · exact s.takeEvent_keeps l fun e lk => lk.trainedArrives_keeps e _
    · exact .refl s
  case qualReadyReceived l =>
    refine State.Keeps.of_next ?_ h
    split
    · exact (s.takeEvent_keeps l fun _ lk => lk.qualReadyArrives_keeps _ _).trans (State.tryRunStart_keeps _ l)
    · exact .refl s
  case qualResultReceived l =>
    refine State.Keeps.of_next ?_ h
    split
    · exact s.takeEvent_keeps l fun e lk => lk.qualResultArrives_keeps e _ _
    · exact .refl s
  case requalReceived l =>
    refine State.Keeps.of_next ?_ h
    split
    · exact s.takeEvent_keeps l fun e lk => lk.requalArrives_keeps e _
    · exact .refl s
  case keepaliveReceived l =>
    refine State.Keeps.of_next ?_ h
    split
    · exact s.takeEvent_keeps l fun e lk => lk.keepaliveArrives_keeps e _
    · exact .refl s
  case byeReceived l =>
    refine State.Keeps.of_next ?_ h
    split
    · exact s.takeEvent_keeps l fun e lk => lk.byeArrives_keeps e _ _
    · exact .refl s
  case pageErrorReport l =>
    refine State.Keeps.of_next ?_ h
    split
    · exact s.takeEvent_keeps l fun e lk => lk.pageErrorArrives_keeps e
    · exact .refl s
  case echoReqDue => exact (onLink _ fun _ lk => lk.echoDue_keeps).of_next h
  case echoReplyReceived =>
    refine (onLink _ fun _ lk => ?_).of_next h
    split
    · exact .trans .same (Link.echoMatch_keeps _ _)
    · exact .refl lk
  case echoReplyTimerExpiry => exact (onLink _ fun _ lk => lk.echoExpire_keeps _).of_next h
  case lengthResult l =>
    refine State.Keeps.of_next ?_ h
    split
    · exact s.takeEvent_keeps l fun e lk => lk.lengthArrives_keeps e _
    · exact .refl s
  case markerTx =>
    refine (onLink _ fun _ lk => ?_).of_next h
    split
    · exact .same
    · exact .refl lk
  case markerDetected =>
    refine (onLink _ fun _ lk => ?_).of_next h
    split
    · exact lk.markerSeen_keeps _ _
    · exact .refl lk
  case skewMeasurementEnd =>
    refine (onLink _ fun e lk => ?_).of_next h
    split
    · exact lk.skewEnds_keeps e
    · exact .refl lk
  case skewResult l =>
    refine State.Keeps.of_next ?_ h
    split
    · exact s.takeEvent_keeps l fun e lk => lk.skewArrives_keeps e _
    · exact .refl s
  case engineRequest l =>
    refine State.Keeps.of_next ?_ h
    split
    · exact (s.dropEngMsg_keeps l).trans (State.engineAsk_keeps _ _ _ rfl)
    · exact .refl s
  case selfCheckRequest =>
    refine State.Keeps.of_next ?_ h
    split
    · exact .trans {} (State.selfCheckAsk_keeps _ _)
    · exact .refl s
  case engineDeparture l =>
    refine State.Keeps.of_next ?_ h
    split
    · exact (s.dropEngMsg_keeps l).trans (State.engineDeparts_keeps _ _ _)
    · exact .refl s
  case engineGrant l =>
    refine State.Keeps.of_next ?_ h
    split
    · exact (s.dropEvent_keeps l).trans (State.takeGrant_keeps _ l)
    · exact .refl s
  case startBlockReceived => exact (s.startBlock_keeps _ _).of_next h
  case testWordReceived => exact (s.testWord_keeps _ _ _).of_next h
  case runLimitExpiry e =>
    refine State.Keeps.of_next ?_ h
    split
    · exact (s.putEngine_keeps e (s.engine e).addShortfall fun ok => ok e).trans (State.endRun_keeps _ e)
    all_goals exact .refl s
  case runResult l =>
    refine State.Keeps.of_next ?_ h
    split
    · exact s.takeEvent_keeps l fun e lk => lk.runEnds_keeps e _ _ _
    · exact .refl s
  case bringUpEvent l =>
    refine State.Keeps.of_next ?_ h
    split
    · exact s.takeEvent_keeps l fun e lk => (lk.bringUp_keeps e).trans (Link.answer_keeps _ _ _)
    · exact .refl s
  case takeDownEvent l =>
    refine State.Keeps.of_next ?_ h
    split
    · exact s.takeEvent_keeps l fun e lk => (lk.takeDown_keeps e).trans (Link.answer_keeps _ _ _)
    · exact .refl s
  case requalifyEvent l =>
    refine State.Keeps.of_next ?_ h
    split
    · refine s.takeEvent_keeps l fun e lk => ?_
      split
      · exact (lk.move_keeps e _ _).trans (Link.answer_keeps _ _ _)
      · exact lk.answer_keeps _ _
    · exact .refl s
  case stateQuery l =>
    refine State.Keeps.of_next ?_ h
    split
    · exact s.takeEvent_keeps l fun e lk => lk.answer_keeps _ _
    · exact .refl s
  case linkAnswer l =>
    refine State.Keeps.of_next ?_ h
    split
    · exact (s.dropOrdMsg_keeps l).trans (State.answerArrives_keeps _ l _ _)
    · exact .refl s
  case requalifyOutcome l =>
    refine State.Keeps.of_next ?_ h
    split
    · exact (s.dropOrdMsg_keeps l).trans (State.requalArrives_keeps _ _ _)
    · exact .refl s
  case loadEndReport =>
    refine State.Keeps.of_next ?_ h
    split
    · exact .trans {} (State.loadReport_keeps _ _)
    · exact .refl s
  case linkEvent l =>
    refine State.Keeps.of_next ?_ h
    split
    · exact (s.dropOrdMsg_keeps l).trans (State.offerAll_keeps _ l _)
    · exact .refl s
  case awaitTimeout =>
    refine State.Keeps.of_next ?_ h
    split
    · exact s.endStanding_keeps _ _
    · exact .refl s
  case discrepancyEvent l =>
    refine State.Keeps.of_next ?_ h
    split
    · exact (s.putLink_keeps l _ .same).trans (State.discrepancyArrives_keeps _ l _)
    · exact .refl s
  case holdoffExpiry =>
    refine State.Keeps.of_next ?_ h
    split
    · exact .ite (fun _ => {}) fun _ => {}
    · exact .refl s
  case statusSpacingEnd =>
    refine State.Keeps.of_next ?_ h
    split
    · exact .ite (fun _ => .trans {} (State.queueStatus_keeps _)) fun _ => {}
    · exact .refl s
  case uptimeTick => exact s.execUptimeTick_keeps h

end Sys2Proof.Machine
end


section
/-! PROOFS. The statements about the machine and its invariants: the state after reset, every step, every command, what a
command on one link leaves. -/

namespace Sys2Proof.Machine

-- One declaration at a time: the threads of a parallel elaboration exceed the memory of the check.
set_option Elab.async false

/-! ## Steps -/

/-- Settles O1: both equations are the two cases of `step`. -/
theorem stepRunsTheFrontCommand : Obligations.StepRunsTheFrontCommand := by
  refine ⟨fun _ _ _ => rfl, fun s h => ?_⟩
  unfold step
  rw [h]

/-- Every command answers a next state. -/
theorem exec_answers (c : Instr) (s : State) : ∃ t, exec c s = .next t := by cases c <;> exact ⟨_, rfl⟩

/-- What a take does: nothing, or the entry chosen enters a free context in READING. -/
theorem State.takeOne_cases (s : State) :
    s.takeOne = s ∨ ∃ p, bestPost s.posted = some p ∧ s.part = .running ∧ s.contexts.length < 16 ∧
      s.takeOne = { s.unpost p.slot with
        takeSeq := s.takeSeq + 1, contexts := s.contexts ++ [⟨p.slot, p.prio, s.takeSeq + 1, .reading false⟩] } := by
  unfold State.takeOne
  split
  · next p hp =>
    split
    · next h => exact .inr ⟨p, hp, h.1, h.2, rfl⟩
    · exact .inl rfl
  · exact .inl rfl

/-- A command keeps the invariants by `State.Keeps`, or is the take, or a reset. -/
theorem exec_cases {c : Instr} {s t : State} (h : exec c s = .next t) :
    s.Keeps t (if endsWriteStep c then s.stepsInProgress else []) ∨ (endsWriteStep c = false ∧ t = s.takeOne) ∨
      (endsWriteStep c = false ∧ t = s.wholeReset) := by
  by_cases hc : c ≠ .take ∧ c ≠ .powerOn ∧ c ≠ .resetPin
  · exact .inl (exec_keeps s c h hc)
  · rw [not_and_or, not_and_or, not_not, not_not, not_not] at hc
    rcases hc with rfl | rfl | rfl
    · exact .inr (.inl ⟨rfl, (Host.Outcome.next.inj h).symm⟩)
    · exact .inr (.inr ⟨rfl, (Host.Outcome.next.inj h).symm⟩)
    · exact .inr (.inr ⟨rfl, (Host.Outcome.next.inj h).symm⟩)

/-- A step idles, or runs one command. -/
theorem step_cases {s t : State} (h : step s = .next t) :
    t = s ∨ ∃ c rest, exec c { s with pending := rest } = .next t := by
  unfold step at h
  split at h
  · exact .inl (Host.Outcome.next.inj h).symm
  · exact .inr ⟨_, _, h⟩

/-- An invariant that does not read the queue of commands is kept by every step where operations, the take and the reset
keep it. -/
theorem step_keeps {P : State → Prop} (hq : ∀ s rest, P s → P { s with pending := rest })
    (hop : ∀ (s t : State) ws, s.Keeps t ws → P s → P t) (htake : ∀ s, P s → P s.takeOne) (hreset : ∀ s, P s → P s.wholeReset)
    (s t : State) (hs : P s) (h : step s = .next t) : P t := by
  rcases step_cases h with rfl | ⟨c, rest, hc⟩
  · exact hs
  · have hs := hq s rest hs
    rcases exec_cases hc with k | ⟨_, rfl⟩ | ⟨_, rfl⟩
    · exact hop _ _ _ k hs
    · exact htake _ hs
    · exact hreset _ hs

/-- The take leaves what does not read the pending set, the take sequence or the contexts. -/
theorem State.takeOne_keeps {α : Type} (f : State → α) (s : State)
    (hf : ∀ (s : State) posted seq ctxs, f { s with posted := posted, takeSeq := seq, contexts := ctxs } = f s := by
      intros; rfl) : f s.takeOne = f s := by
  rcases s.takeOne_cases with h | ⟨_, _, _, _, h⟩ <;> rw [h]
  exact hf s _ _ _

/-! ## The commands' register -/

/-- A CONTROL write has the effect of the command it is (R181). -/
theorem exec_controlWrite (offset value : Word) (s : State) (h : offset.toNat = 0x04) :
    exec (.registerWrite offset value) s = exec (decodeWrite offset value) s := by
  have write : exec (.registerWrite offset value) s = .next (s.controlWrite value) := by
    change Host.Outcome.next (s.writeRegister offset value) = _
    unfold State.writeRegister
    simp only [h]
  unfold decodeWrite
  simp only [h]
  split
  case h_5 => rfl
  all_goals
    next hv =>
      rw [write]
      unfold State.controlWrite
      simp only [hv]
      rfl

/-- An ATTENTION write has the effect of the command it is (R147). -/
theorem exec_attentionWrite (offset value : Word) (s : State) (h : offset.toNat = 0x0C) :
    exec (.registerWrite offset value) s = exec (decodeWrite offset value) s := by
  have write : exec (.registerWrite offset value) s = .next (s.attentionWrite value) := by
    change Host.Outcome.next (s.writeRegister offset value) = _
    unfold State.writeRegister
    simp only [h]
  rw [write]
  unfold decodeWrite
  simp only [h]
  unfold State.attentionWrite decodeAttention
  generalize (value.extractLsb' 0 2).toNat = action
  match action with
  | 0 | 1 | 2 | 3 | _ + 4 => rfl

/-- Settles O2. -/
theorem everyCommandAnswers : Obligations.EveryCommandAnswers := by
  refine ⟨fun c s => ?_, fun offset value s => ?_⟩
  · obtain ⟨t, h⟩ := exec_answers c s
    refine ⟨t, h, ?_⟩
    rcases exec_cases h with k | ⟨_, rfl⟩ | ⟨_, rfl⟩
    · exact k.pending
    · exact s.takeOne_keeps State.pending
    · rfl
  · by_cases hc : offset.toNat = 0x04
    · exact exec_controlWrite offset value s hc
    · by_cases ha : offset.toNat = 0x0C
      · exact exec_attentionWrite offset value s ha
      · have other : ∀ i : Instr, decodeWrite offset value = i →
            exec (.registerWrite offset value) s = exec i s := by
          intro i hi
          unfold decodeWrite at hi
          split at hi
          · exact absurd ‹_› hc
          · exact absurd ‹_› ha
          · next h => rw [← hi]; exact congrArg Host.Outcome.next (by unfold State.writeRegister; simp only [h])
          · next h => rw [← hi]; exact congrArg Host.Outcome.next (by unfold State.writeRegister; simp only [h])
          · rw [← hi]
        exact other _ rfl

/-! ## Reset -/

theorem Bank.getElem_fill {α : Type} (n : Nat) (a : α) (i : Nat) (h : i < n) : (Bank.fill n a)[i] = a := by
  simp [Bank.fill]

theorem Bank.getElem_of {α : Type} (n : Nat) (f : Nat → α) (i : Nat) (h : i < n) : (Bank.of n f)[i] = f i := by
  simp [Bank.of]

/-- Every link after reset is fresh, at the width of a WHOLE port (R3, R189). -/
theorem State.link_reset (l : LinkId) : State.reset.link l = Link.fresh (legWidth .whole (legOf l)) := by
  change (Bank.of 64 _)[l.val] = _
  rw [Bank.getElem_of]
  congr 1
  unfold legWidth legOf
  simp only [Fin.ext_iff]
  rfl

theorem State.engine_reset (e : EngineId) : State.reset.engine e = Engine.free [] := Bank.getElem_fill 16 _ e.val e.isLt

/-- Settles O3. -/
theorem resetIsTheInitialState : Obligations.ResetIsTheInitialState := by
  refine ⟨⟨rfl, rfl, rfl, rfl, ?_, rfl, fun p => Bank.getElem_fill 32 _ p.val p.isLt, rfl, rfl, rfl,
    State.link_reset, State.engine_reset, rfl, rfl, rfl, rfl, rfl, rfl, rfl, rfl,
    fun l => Bank.getElem_fill 64 _ l.val l.isLt, rfl, rfl, rfl, rfl, rfl, rfl, rfl, rfl, rfl, rfl, rfl⟩, fun s c hc => ?_⟩
  · intro off hoff
    simp only [List.mem_cons, List.not_mem_nil, or_false] at hoff
    rcases hoff with rfl | rfl | rfl | rfl | rfl | rfl | rfl | rfl <;> rfl
  · simp only [List.mem_cons, List.not_mem_nil, or_false] at hc
    rcases hc with rfl | rfl <;> rfl

theorem State.gatesOk_wholeReset (s : State) : s.wholeReset.gatesOk := fun l => by
  have fresh : s.wholeReset.link l = Link.fresh (legWidth .whole (legOf l)) := State.link_reset l
  rw [fresh]
  exact iff_of_false Bool.false_ne_true nofun

theorem State.pagesOk_wholeReset (s : State) : s.wholeReset.pagesOk := fun l => by
  have fresh : s.wholeReset.link l = Link.fresh (legWidth .whole (legOf l)) := State.link_reset l
  rw [fresh]
  exact ⟨Nat.zero_le 8, Nat.zero_le 4⟩

theorem State.enginesOk_wholeReset (s : State) : s.wholeReset.enginesOk := fun e => by
  have free : s.wholeReset.engine e = Engine.free [] := State.engine_reset e
  rw [free]
  exact ⟨nofun, nofun⟩

/-- Settles O11. -/
theorem resetMeetsTheInvariants : Obligations.ResetMeetsTheInvariants :=
  ⟨Memory.wf_reset, State.gatesOk_wholeReset .reset, fun _ => Nat.zero_le 1, Nat.zero_le 16,
    State.pagesOk_wholeReset .reset, State.enginesOk_wholeReset .reset, List.nodup_nil, List.nodup_nil, Nat.zero_le 1⟩

/-! ## The invariants -/

theorem State.link_takeOne (s : State) (l : LinkId) : s.takeOne.link l = s.link l :=
  State.link_congr (s.takeOne_keeps State.links) l

/-- Settles O6. -/
theorem everyStepKeepsMemoryCanonical : Obligations.EveryStepKeepsMemoryCanonical := by
  refine fun s t hs h => step_keeps (P := State.memOk) (fun _ _ h => h) (fun _ _ _ k => k.mem.wf) (fun s h => ?_)
    (fun _ h => h) s t hs h
  have mem : s.takeOne.hostMem = s.hostMem := s.takeOne_keeps State.hostMem
  unfold State.memOk at h ⊢
  rwa [mem]

/-- Settles O7. -/
theorem everyStepKeepsGatesWithUp : Obligations.EveryStepKeepsGatesWithUp := by
  refine fun s t hs h => step_keeps (P := State.gatesOk) (fun _ _ h => h) (fun _ _ _ k h l => (k.links l).gate (h l))
    (fun s h l => ?_) (fun s _ => s.gatesOk_wholeReset) s t hs h
  rw [s.link_takeOne]
  exact h l

theorem State.Keeps.contextsOk {s t : State} {ws : List WStep} (k : s.Keeps t ws) (h : s.contextsOk) : t.contextsOk := by
  have le := k.seqs.length_le
  rw [List.length_map, List.length_map] at le
  exact le.trans h

theorem State.contextsOk_takeOne {s : State} (h : s.contextsOk) : s.takeOne.contextsOk := by
  rcases s.takeOne_cases with e | ⟨p, _, _, room, e⟩ <;> rw [e]
  · exact h
  · change (s.contexts ++ [_]).length ≤ 16
    rw [List.length_append, List.length_singleton]
    exact room

/-- A take that is not in flight keeps the takes in flight distinct (R152). -/
theorem State.seqsOk_takeOne {s : State} (h : s.seqsOk) (fresh : ∀ c ∈ s.contexts, c.seq ≠ s.takeSeq + 1) :
    s.takeOne.seqsOk := by
  rcases s.takeOne_cases with e | ⟨p, _, _, _, e⟩ <;> rw [e]
  · exact h
  · change ((s.contexts ++ [_]).map (fun c : Ctx => c.seq)).Nodup
    rw [List.map_append, List.nodup_append]
    refine ⟨h, by simp, fun a ha b hb => ?_⟩
    obtain ⟨c, hc, rfl⟩ := List.mem_map.1 ha
    rw [List.map_singleton, List.mem_singleton] at hb
    exact hb ▸ fresh c hc

/-- Settles O8. -/
theorem everyStepKeepsTheBounds : Obligations.EveryStepKeepsTheBounds := by
  refine ⟨?_, ?_, ?_, ?_⟩
  · refine fun s t hs h => step_keeps (P := State.logOk) (fun _ _ h => h) (fun _ _ _ k => k.log) (fun s h => ?_)
      (fun _ _ _ => Nat.zero_le 1) s t hs h
    have log : s.takeOne.log = s.log := s.takeOne_keeps State.log
    unfold State.logOk at h ⊢
    rwa [log]
  · refine fun s t hs h => step_keeps (P := fun s => s.contextsOk ∧ s.pagesOk) (fun _ _ h => h) (fun _ _ _ k h => ?_)
      (fun s h => ?_) (fun s _ => ⟨Nat.zero_le 16, s.pagesOk_wholeReset⟩) s t hs h
    · exact ⟨k.contextsOk h.1, fun l => ⟨(k.links l).rx (h.2 l).1, (k.links l).tx (h.2 l).2⟩⟩
    · exact ⟨State.contextsOk_takeOne h.1, fun l => by rw [s.link_takeOne]; exact h.2 l⟩
  · refine fun s t hs h => step_keeps (P := State.dirtyOk) (fun _ _ h => h) (fun _ _ _ k => k.dirty) (fun s h => ?_)
      (fun _ _ => List.nodup_nil) s t hs h
    have dirty : s.takeOne.dirty = s.dirty := s.takeOne_keeps State.dirty
    unfold State.dirtyOk at h ⊢
    rwa [dirty]
  · intro s t hs fresh h
    rcases step_cases h with rfl | ⟨c, rest, hc⟩
    · exact hs
    · rcases exec_cases hc with k | ⟨_, rfl⟩ | ⟨_, rfl⟩
      · exact List.Nodup.sublist k.seqs hs
      · exact State.seqsOk_takeOne (s := { s with pending := rest }) hs fresh
      · exact List.nodup_nil

/-- Settles O9. -/
theorem everyStepKeepsEnginesOnTheirPorts : Obligations.EveryStepKeepsEnginesOnTheirPorts :=
  step_keeps (P := State.enginesOk) (fun _ _ h => h) (fun _ _ _ k => k.engines)
    (fun s => (State.enginesOk_congr (s.takeOne_keeps State.engines)).2) (fun s _ => s.enginesOk_wholeReset)

/-- Settles O10. -/
theorem everyStepKeepsOneStatusEntryWaiting : Obligations.EveryStepKeepsOneStatusEntryWaiting := by
  refine fun s t hs h => step_keeps (P := State.statusOk) (fun _ _ h => h) (fun _ _ _ k => k.status) (fun s h => ?_)
    (fun _ _ => Nat.zero_le 1) s t hs h
  have queue : s.takeOne.writeQueue = s.writeQueue := s.takeOne_keeps State.writeQueue
  have begun : s.takeOne.headBegun = s.headBegun := State.headBegun_congr (s.takeOne_keeps State.writing)
  unfold State.statusOk at h ⊢
  rwa [queue, begun]

/-- Settles O5: memory changes by landing steps of the write in progress, which two commands alone do. -/
theorem memoryChangesOnlyByWriteSteps : Obligations.MemoryChangesOnlyByWriteSteps := by
  intro c s t h
  have same : t.hostMem = s.hostMem → (endsWriteStep c = false → t.hostMem = s.hostMem) ∧
      ∀ a, (∀ w ∈ s.stepsInProgress, a < w.addr ∨ w.addr + w.bytes.length ≤ a) →
        Memory.get t.hostMem a = Memory.get s.hostMem a := fun e => ⟨fun _ => e, fun _ _ => by rw [e]⟩
  rcases exec_cases h with k | ⟨_, rfl⟩ | ⟨_, rfl⟩
  · have mem := k.mem
    cases hc : endsWriteStep c with
    | false =>
      rw [hc] at mem
      exact same mem.eq |>.imp_left fun _ _ => mem.eq
    | true =>
      rw [hc] at mem
      exact ⟨nofun, fun a ha => mem.get_other ha⟩
  · exact same (s.takeOne_keeps State.hostMem)
  · exact same rfl

/-! ## Commands on one link (R14, R193) -/

theorem OnlyLink.of_next {l : LinkId} {s t u : State} (k : OnlyLink l s u)
    (h : (Host.Outcome.next u : Host.Outcome State Fault Refusal) = .next t) : OnlyLink l s t :=
  Host.Outcome.next.inj h ▸ k

/-- A command of `linkOfCommand` takes the oldest event of its link's inbox, where it is the one it names, or is a step of
its link. -/
theorem linkCommand_only {c : Instr} {l : LinkId} {s t : State} (hl : linkOfCommand s c = some l)
    (h : exec c s = .next t) : OnlyLink l s t := by
  cases c
  case pageArrival | lossOfSignal | markerDetected =>
    obtain rfl := Option.some.inj hl
    exact (State.onLink_only s _ _).of_next h
  case pageTxStart | announceExpiry | keepaliveTimerExpiry | byeCopyDue | holdLimitExpiry | holdForceLimitExpiry |
      presenceDeadlineExpiry | absenceTimerExpiry | pairingTimerExpiry | verifyTimerExpiry | trainTimerExpiry |
      qualifyWaitExpiry | peerResultWaitExpiry | backoffExpiry | peerSilentExpiry | burstIntervalEnd | laneStreamError |
      echoReqDue | echoReplyReceived | echoReplyTimerExpiry | markerTx | skewMeasurementEnd =>
    obtain rfl := Option.some.inj hl
    exact (State.onLink_only s _ _).of_next h
  case firstValidBeacon | quietBeacon | mapOutcome | mapFinding | identReceived | trainReadyReceived | trainedReceived |
      qualResultReceived | requalReceived | keepaliveReceived | byeReceived | pageErrorReport | lengthResult | skewResult |
      runResult | bringUpEvent | takeDownEvent | requalifyEvent | stateQuery =>
    obtain rfl := Option.some.inj hl
    refine OnlyLink.of_next ?_ h
    split
    · exact s.takeEvent_only _ _
    · exact .refl _ s
  all_goals exact absurd hl nofun

/-- A ROW_CHANGE takes the oldest event of its link where it is a row change (R14). -/
theorem rowChange_cases (l : LinkId) (s : State) :
    ((∀ d, (s.link l).inbox.head? ≠ some (.rowChange d)) ∧ exec (.rowChange l) s = .next s) ∨
      ∃ d rest u, (s.link l).inbox = .rowChange d :: rest ∧ OnlyLink l s u ∧
        u = ((s.dropEvent l).onLink l fun e lk => lk.reconcile e d (legOf l)).onLink l
          (fun e lk => lk.reconcileEnd e d (legOf l)) ∧
        exec (.rowChange l) s = .next u.checkReconciled := by
  change (_ ∧ Host.Outcome.next _ = _) ∨ ∃ d rest u, _ ∧ _ ∧ _ ∧ Host.Outcome.next _ = _
  split
  · next d rest hi =>
    exact .inr ⟨d, rest, _, hi, (s.takeEvent_only l _).trans (State.onLink_only _ l _), rfl, rfl⟩
  · next hno =>
    refine .inl ⟨fun d hd => ?_, rfl⟩
    cases hi : (s.link l).inbox with
    | nil => simp [hi] at hd
    | cons ev rest =>
      rw [hi] at hd
      obtain rfl := Option.some.inj hd
      exact hno d rest hi

/-- Settles O4. -/
theorem linkCommandsChangeOneLink : Obligations.LinkCommandsChangeOneLink := by
  refine ⟨fun c l s t => linkCommand_only, fun l s t h => ?_⟩
  rcases rowChange_cases l s with ⟨hno, e⟩ | ⟨d, rest, u, _, hu, _, e⟩
  · exact .inl ⟨hno, (Host.Outcome.next.inj (e.symm.trans h)).symm⟩
  · obtain rfl := Host.Outcome.next.inj (e.symm.trans h)
    exact .inr ⟨u, hu, u.checkReconciled_goesOn⟩

end Sys2Proof.Machine
end


section
/-! PROOFS. The register window: writes that act at once, POST, RECALL and RELEASE. -/

namespace Sys2Proof.Machine

-- One declaration at a time: the threads of a parallel elaboration exceed the memory of the check.
set_option Elab.async false

/-! ## Register writes (R180, R191) -/

/-- No attention word is a REGISTER_WRITE. -/
theorem decodeAttention_ne (value offset : Word) (v : Word) : decodeAttention value ≠ .registerWrite offset v := by
  unfold decodeAttention
  split <;> exact nofun

/-- A register write that is no other row reaches the anchor address registers, in IDLE, and nothing else (R180). -/
theorem State.writeRegister_own (s : State) (offset value : Word)
    (h : decodeWrite offset value = .registerWrite offset value) :
    s.writeRegister offset value =
      if s.part = .idle ∧ offset = 0x18 then { s with anchorLo := value }
      else if s.part = .idle ∧ offset = 0x1C then { s with anchorHi := value }
      else s := by
  have other : ∀ k : Word, offset.toNat = k.toNat → offset = k := fun k e => BitVec.eq_of_toNat_eq e
  have skip : ∀ k : Nat, offset.toNat = k → k ≠ 0x18 → k ≠ 0x1C →
      s = if s.part = .idle ∧ offset = 0x18 then { s with anchorLo := value }
        else if s.part = .idle ∧ offset = 0x1C then { s with anchorHi := value } else s := by
    intro k hk h1 h2
    rw [if_neg (fun e => h1 (by rw [← hk, e.2]; rfl)), if_neg (fun e => h2 (by rw [← hk, e.2]; rfl))]
  unfold decodeWrite at h
  unfold State.writeRegister
  split at h
  · next e =>
    simp only [e]
    rw [← skip _ e (by decide) (by decide)]
    unfold State.controlWrite
    generalize value.toNat = command at h ⊢
    match command, h with
    | 0, _ | _ + 5, _ => rfl
    | 1, h | 2, h | 3, h | 4, h => exact absurd h nofun
  · exact absurd h (decodeAttention_ne value offset value)
  · exact absurd h nofun
  · exact absurd h nofun
  · split
    · exact absurd ‹_› ‹¬offset.toNat = 0x04›
    · exact absurd ‹_› ‹¬offset.toNat = 0x0C›
    · exact absurd ‹_› ‹¬offset.toNat = 0x10›
    · exact absurd ‹_› ‹¬offset.toNat = 0x14›
    · next e =>
      rw [other 0x18 e]
      by_cases hp : s.part = .idle
      · rw [if_pos hp, if_pos ⟨hp, rfl⟩]
      · rw [if_neg hp, if_neg fun e => hp e.1, if_neg fun e => hp e.1]
    · next e =>
      rw [other 0x1C e]
      by_cases hp : s.part = .idle
      · rw [if_pos hp, if_neg (fun e => absurd e.2 (by decide)), if_pos ⟨hp, rfl⟩]
      · rw [if_neg hp, if_neg fun e => hp e.1, if_neg fun e => hp e.1]
    · next h18 h1C => exact skip _ rfl h18 h1C

/-- Fewer flags open no message (R191). -/
theorem State.setNotices_clear (s : State) (flags : BitVec 5) :
    s.setNotices (s.notices &&& flags) s.noticeEnable = { s with notices := s.notices &&& flags } := by
  unfold State.setNotices
  have closed : ¬(s.notices &&& s.noticeEnable = 0 ∧ s.notices &&& flags &&& s.noticeEnable ≠ 0) := by
    rintro ⟨h1, h2⟩
    refine h2 ?_
    rw [BitVec.and_assoc, BitVec.and_comm flags, ← BitVec.and_assoc, h1]
    exact BitVec.zero_and
  simp only [decide_eq_false closed]
  rfl

/-- Settles O12. -/
theorem registerWritesActAtOnce : Obligations.RegisterWritesActAtOnce := by
  refine ⟨fun offset value s h => ?_, fun bits s => ⟨congrArg Host.Outcome.next (s.setNotices_clear _), ?_⟩⟩
  · exact congrArg Host.Outcome.next (s.writeRegister_own offset value (of_decide_eq_true h))
  · refine congrArg Host.Outcome.next ?_
    unfold State.enableWrite State.setNotices
    dsimp only
    split
    · next h => rw [decide_eq_true h]; rfl
    · next h => rw [decide_eq_false h]; rfl

/-! ## The attention word (R147 to R149, R154, R142) -/

theorem State.slotKnown_iff (s : State) (slot : Nat) :
    s.slotKnown slot = true ↔ (∃ p ∈ s.posted, p.slot = slot) ∨ ∃ c ∈ s.contexts, c.slot = slot := by
  simp [State.slotKnown]

/-- Settles O13. -/
theorem postIsAnsweredAtOnce : Obligations.PostIsAnsweredAtOnce := by
  intro index prio s
  refine congrArg Host.Outcome.next ?_
  unfold State.postWrite State.postTaken
  by_cases hi : s.part = .idle ∨ s.quiescing
  · rw [if_pos hi, if_pos hi]; rfl
  rw [if_neg hi, if_neg hi]
  by_cases hb : s.beforeAccept
  · rw [if_pos hb, if_pos (.inl hb)]; rfl
  rw [if_neg hb]
  by_cases hc : s.slotCount ≤ index.toNat
  · rw [if_pos hc, if_pos (.inr hc)]; rfl
  rw [if_neg hc, if_neg (not_or.2 ⟨hb, hc⟩)]
  by_cases hk : s.slotKnown index.toNat = true
  · rw [if_pos hk, if_pos (s.slotKnown_iff _ |>.1 hk)]; rfl
  · rw [if_neg hk, if_neg fun e => hk (s.slotKnown_iff _ |>.2 e)]

/-- The only context of a slot is the one found for it. -/
theorem State.find?_slot {s : State} {slot : Nat} {c : Ctx} (hc : c ∈ s.contexts) (hs : c.slot = slot)
    (only : ∀ d ∈ s.contexts, d.slot = slot → d = c) :
    s.contexts.find? (fun d => decide (d.slot = slot)) = some c := by
  cases h : s.contexts.find? (fun d => decide (d.slot = slot)) with
  | none => exact absurd (List.find?_eq_none.1 h c hc) (by simp [hs])
  | some d => rw [only d (List.mem_of_find?_eq_some h) (by simpa using List.find?_some h)]

/-- A RECALL of a slot that is pending nowhere, by the context of that slot. -/
theorem State.recallTaken_context (s : State) (slot : Nat) (hn : slot < s.slotCount) (hp : ∀ p ∈ s.posted, p.slot ≠ slot) :
    s.recallTaken slot = match s.contexts.find? fun c => decide (c.slot = slot) with
      | some ⟨_, _, seq, .active o _⟩ =>
        if o.standing then (s.endStanding seq .recalled).answerAttn .accepted else s.answerAttn .tooLate
      | some ⟨_, _, _, .reading _⟩ | some ⟨_, _, _, .closing ..⟩ => s.answerAttn .tooLate
      | none => s.answerAttn .notFound := by
  have free : ¬(s.posted.any fun p => decide (p.slot = slot)) = true := by simpa using hp
  unfold State.recallTaken
  exact (if_neg (Nat.not_le.2 hn)).trans (if_neg free)

/-- With distinct takes, a change of the context of a take is a change of one context. -/
theorem State.map_ctx {s : State} (h : s.seqsOk) {c : Ctx} (hc : c ∈ s.contexts) (f : Ctx → Ctx) :
    s.contexts.map (fun d => if d.seq = c.seq then f d else d) = s.contexts.map fun d => if d = c then f d else d := by
  refine List.map_congr_left fun d hd => ?_
  by_cases e : d.seq = c.seq
  · have same : d = c := by
      have h1 := State.ctx?_mem h hd
      rw [e, State.ctx?_mem h hc] at h1
      exact (Option.some.inj h1).symm
    rw [if_pos e, if_pos same]
  · rw [if_neg e, if_neg fun x => e (congrArg Ctx.seq x)]

/-- Settles O14. -/
theorem recallIsAnsweredAtOnce : Obligations.RecallIsAnsweredAtOnce := by
  intro index s
  have taken : s.part ≠ .idle → s.beforeAccept = false → s.recallWrite index = s.recallTaken index.toNat := by
    intro hi hb
    unfold State.recallWrite
    rw [if_neg hi, if_neg (by rw [hb]; exact Bool.false_ne_true)]
  refine ⟨fun hi => ?_, fun hi hb => ?_, fun hi hb hn => ?_, fun hi hb hn => ⟨fun hp => ?_, fun hp hc => ?_, ?_⟩⟩
  · refine congrArg Host.Outcome.next ?_
    unfold State.recallWrite
    rw [if_pos hi]; rfl
  · refine congrArg Host.Outcome.next ?_
    unfold State.recallWrite
    rw [if_neg hi, if_pos hb]; rfl
  · refine congrArg Host.Outcome.next ((taken hi hb).trans ?_)
    unfold State.recallTaken
    rw [if_pos hn]; rfl
  · refine congrArg Host.Outcome.next ((taken hi hb).trans ?_)
    have pending : (s.posted.any fun p => decide (p.slot = index.toNat)) = true := by simpa using hp
    unfold State.recallTaken
    rw [if_neg (Nat.not_le.2 hn), if_pos pending]; rfl
  · refine congrArg Host.Outcome.next ((taken hi hb).trans ?_)
    rw [s.recallTaken_context _ hn hp, List.find?_eq_none.2 (by simpa using hc)]; rfl
  · intro hp hs c hc hslot only
    have found := State.find?_slot hc hslot only
    have act := State.ctx?_mem hs hc
    obtain ⟨slot, prio, seq, phase⟩ := c
    refine ⟨fun o p hph hst => ?_, fun hno => ?_⟩
    · obtain rfl : phase = .active o p := hph
      refine congrArg Host.Outcome.next ((taken hi hb).trans ?_)
      rw [s.recallTaken_context _ hn hp, found]
      simp only [hst, if_true]
      rw [s.endStanding_active act hst, State.map_ctx hs hc]
      rfl
    · refine congrArg Host.Outcome.next ((taken hi hb).trans ?_)
      rw [s.recallTaken_context _ hn hp, found]
      cases phase with
      | active o p => simp only [hno o p rfl]; rfl
      | reading f => rfl
      | closing st b => rfl

/-! ## RELEASE (R142, R148) -/

/-- A HELD record that becomes FREE is one fewer (R134). -/
theorem State.heldCount_free {s t : State} {n : Nat} {h : HeldRec} (hn : s.log[n]? = some (some h))
    (ht : t.log = s.log.set n none) : t.heldCount ≠ s.heldCount := by
  obtain ⟨hlt, hget⟩ := List.getElem?_eq_some_iff.1 hn
  have one : 0 < s.log.countP (·.isSome) := by
    rw [List.countP_pos_iff]
    exact ⟨_, List.getElem_mem hlt, by rw [hget]; rfl⟩
  unfold State.heldCount
  rw [ht, ← List.countP_eq_length_filter, ← List.countP_eq_length_filter, List.countP_set hlt, hget]
  simp only [Option.isSome_some, Option.isSome_none, if_true]
  simp only [Bool.false_eq_true, if_false]
  omega

/-- The records from a place on. -/
theorem drop_of_getElem? {α : Type} {xs : List α} {n : Nat} {x : α} (h : xs[n]? = some x) :
    xs.drop n = x :: xs.drop (n + 1) := by
  obtain ⟨hlt, hget⟩ := List.getElem?_eq_some_iff.1 h
  rw [List.drop_eq_getElem_cons hlt, hget]

/-- What holds of the status block alone holds beside another answer to an attention word. -/
theorem StatusOnly.answerAttn {s t : State} (h : StatusOnly s t) (r : AttnResult) :
    StatusOnly (s.answerAttn r) (t.answerAttn r) :=
  ⟨congrArg (fun u : State => u.answerAttn r) h.rest, h.queue⟩

/-- A record becomes FREE, and the write of its state word is queued (R142). -/
def State.freeRecord (s : State) (n : Nat) : State :=
  { s with log := s.log.set n none, writeQueue := s.writeQueue ++ [⟨.release, [s.logWordStep n false]⟩] }

/-- RELEASE of a HELD record, its write before a status block entry (R142, R193). -/
theorem State.releaseTaken_held (s : State) {n : Nat} {h : HeldRec} (hn : s.log[n]? = some (some h)) :
    s.releaseTaken n = (s.freeRecord n).statusChange.answerAttn .accepted := by
  unfold State.releaseTaken State.setLog
  rw [drop_of_getElem? hn]
  dsimp only
  rw [if_neg (State.heldCount_free hn rfl)]
  rfl

/-- Settles O15. -/
theorem releaseFreesAHeldRecord : Obligations.ReleaseFreesAHeldRecord := by
  intro index prio s
  have taken : s.part ≠ .idle → s.beforeAccept = false → s.releaseWrite index = s.releaseTaken index.toNat := by
    intro hi hb
    unfold State.releaseWrite
    rw [if_neg hi, if_neg (by rw [hb]; exact Bool.false_ne_true)]
  refine ⟨rfl, fun hi => ?_, fun hi hb => ?_, fun hi hb => ⟨fun hn => ?_, fun hf => ?_, fun h hh => ?_⟩⟩
  · refine congrArg Host.Outcome.next ?_
    unfold State.releaseWrite
    rw [if_pos hi]; rfl
  · refine congrArg Host.Outcome.next ?_
    unfold State.releaseWrite
    rw [if_neg hi, if_pos hb]; rfl
  · refine congrArg Host.Outcome.next ((taken hi hb).trans ?_)
    unfold State.releaseTaken
    rw [List.drop_eq_nil_of_le hn]
  · refine congrArg Host.Outcome.next ((taken hi hb).trans ?_)
    unfold State.releaseTaken
    rw [drop_of_getElem? hf]
  · refine ⟨_, congrArg Host.Outcome.next ((taken hi hb).trans (s.releaseTaken_held hh)), fun ha => ?_, ?_⟩
    · exact State.statusChange_sets (s.freeRecord _) ha hi
    · exact (State.statusChange_only (s.freeRecord _)).answerAttn .accepted

end Sys2Proof.Machine
end


section
/-! PROOFS. The part states: START, STOP and RESUME. -/

namespace Sys2Proof.Machine

-- One declaration at a time: the threads of a parallel elaboration exceed the memory of the check.
set_option Elab.async false

/-! ## START (R183, R184) -/

/-- Settles O16. -/
theorem startEntersLoading : Obligations.StartEntersLoading := by
  refine ⟨fun s => ⟨fun hi => ?_, fun hi ha => ?_, fun hi ha => ?_⟩, fun s => ⟨?_, ?_⟩⟩
  · refine congrArg Host.Outcome.next ?_
    unfold State.startWrite
    rw [if_neg hi]
  · refine congrArg Host.Outcome.next ?_
    unfold State.startWrite State.startLoading
    rw [if_pos hi]
    exact if_pos ha
  · refine congrArg Host.Outcome.next ?_
    unfold State.startWrite State.startLoading
    rw [if_pos hi]
    exact if_neg ha
  · unfold State.anchorAddr
    rw [BitVec.toNat_append, ← Nat.shiftLeft_add_eq_or_of_lt s.anchorLo.isLt, Nat.shiftLeft_eq]
  · unfold State.anchorAddr
    rw [BitVec.toNat_append, ← Nat.shiftLeft_add_eq_or_of_lt s.anchorLo.isLt, Nat.shiftLeft_eq]
    have low : (s.anchorLo &&& 0x7F).toNat = s.anchorLo.toNat % 128 := by
      rw [BitVec.toNat_and]
      exact Nat.and_two_pow_sub_one_eq_mod _ 7
    rw [BitVec.toNat_eq, low]
    change _ ↔ s.anchorLo.toNat % 128 = 0
    omega

/-! ## What joins the write queue with a change of part state -/

/-- A status block entry touches the write queue and the spacing alone. -/
theorem State.queueStatus_rest (s : State) : { s.queueStatus with writeQueue := s.writeQueue, spacing := s.spacing } = s := by
  unfold State.queueStatus
  split <;> rfl

theorem State.queueStatus_unaccepted {s : State} (h : s.accepted = false) : s.queueStatus = s := by
  unfold State.queueStatus
  rw [if_neg fun e => absurd (h ▸ e.1) Bool.false_ne_true]

/-- Once an anchor is accepted, an entry waits after the status block has been queued. -/
theorem State.queueStatus_ne_nil {s : State} (h : s.accepted = true) : s.queueStatus.writeQueue ≠ [] := by
  unfold State.queueStatus
  split
  · exact List.append_ne_nil_of_right_ne_nil _ (List.cons_ne_nil _ _)
  · next hn =>
    have waits : s.statusWaiting = true := by simpa [h] using hn
    intro e
    unfold State.statusWaiting at waits
    rw [e] at waits
    split at waits <;> exact absurd waits Bool.false_ne_true

theorem filter_status (m : StatusMark) (xs : List QEntry) :
    (xs ++ [(⟨.status m, []⟩ : QEntry)]).filter (fun q => !q.kind.isStatus) = xs.filter fun q => !q.kind.isStatus := by
  rw [List.filter_append]
  exact List.append_nil _

theorem State.queueStatus_filter (s : State) : s.queueStatus.writeQueue.filter (fun q => !q.kind.isStatus) =
    s.writeQueue.filter fun q => !q.kind.isStatus := by
  rcases s.queueStatus_only.queue with e | e <;> rw [e]
  rw [filter_status]

/-! ## The end of the orders at STOP (R158) -/

/-- What an ACTIVE standing order's context becomes when it ends with a status; any other context stays. -/
def Ctx.ended (st : Status) (c : Ctx) : Ctx :=
  match c.phase with
  | .active o _ => if o.standing then { c with phase := .closing st true } else c
  | .reading _ | .closing .. => c

/-- The writes that the end of an ACTIVE standing order queues. -/
def State.endEntries (s : State) (st : Status) (c : Ctx) : List QEntry :=
  match c.phase with
  | .active o p =>
    if o.standing then [s.resultEntry c.slot (s.standingResult o p), s.doneEntry c.slot (some c.seq) false st] else []
  | .reading _ | .closing .. => []

theorem Ctx.ended_seq (st : Status) (c : Ctx) : (c.ended st).seq = c.seq := by
  unfold Ctx.ended
  split
  · split <;> rfl
  all_goals rfl

/-- One context of the list ends, where it is an ACTIVE standing order. -/
theorem State.endStanding_mid (s : State) {pre suf : List Ctx} {c : Ctx} (st : Status)
    (hc : s.contexts = pre ++ c :: suf) (h : s.seqsOk) :
    s.endStanding c.seq st = { s with
      contexts := pre ++ c.ended st :: suf, writeQueue := s.writeQueue ++ s.endEntries st c } := by
  have found : s.ctx? c.seq = some c := State.ctx?_mem h (by simp [hc])
  have distinct : ((pre ++ c :: suf).map (·.seq)).Nodup := hc ▸ h
  obtain ⟨slot, prio, seq, phase⟩ := c
  unfold Ctx.ended State.endEntries
  cases phase with
  | active o p =>
    by_cases ho : o.standing = true
    · rw [s.endStanding_active found ho, hc, map_setPhase_mid distinct]
      simp only [ho, if_true]
    · unfold State.endStanding
      rw [found]
      simp [ho, ← hc]
  | reading f =>
    unfold State.endStanding
    rw [found]
    simp [← hc]
  | closing s b =>
    unfold State.endStanding
    rw [found]
    simp [← hc]

/-- Every ACTIVE standing order ends, in the order of the contexts (R158). -/
theorem State.endStandings_eq (s : State) (h : s.seqsOk) (st : Status) :
    (s.contexts.map (·.seq)).foldl (fun s q => s.endStanding q st) s = { s with
      contexts := s.contexts.map (Ctx.ended st), writeQueue := s.writeQueue ++ s.contexts.flatMap (s.endEntries st) } := by
  have key : ∀ (suf pre : List Ctx) (t : State), t.contexts = pre ++ suf → t.seqsOk →
      (suf.map (·.seq)).foldl (fun s q => s.endStanding q st) t = { t with
        contexts := pre ++ suf.map (Ctx.ended st), writeQueue := t.writeQueue ++ suf.flatMap (t.endEntries st) } := by
    intro suf
    induction suf with
    | nil => intro pre t hc _; simp [← hc]
    | cons c suf ih =>
      intro pre t hc hn
      rw [List.map_cons, List.foldl_cons, t.endStanding_mid st hc hn, ih (pre ++ [c.ended st])]
      · simp only [List.append_assoc, List.singleton_append, List.flatMap_cons, List.map_cons]
        rfl
      · simp
      · have e : ((pre ++ c :: suf).map (·.seq)).Nodup := hc ▸ hn
        unfold State.seqsOk
        simpa [Ctx.ended_seq] using e
  exact key s.contexts [] s rfl h

/-- The ends of orders touch the contexts and the tail of the write queue alone. -/
theorem State.endStandings_rest (st : Status) (qs : List Word) : ∀ s : State, ∃ cs more,
    qs.foldl (fun s q => s.endStanding q st) s = { s with contexts := cs, writeQueue := s.writeQueue ++ more } ∧
      (s.contexts = [] → cs = [] ∧ more = []) := by
  induction qs with
  | nil => exact fun s => ⟨s.contexts, [], by simp, fun h => ⟨h, rfl⟩⟩
  | cons q qs ih =>
    intro s
    have one : ∃ cs more, s.endStanding q st = { s with contexts := cs, writeQueue := s.writeQueue ++ more } ∧
        (s.contexts = [] → cs = [] ∧ more = []) := by
      unfold State.endStanding
      split
      · next slot prio seq o p hc =>
        obtain ⟨mem, rfl⟩ := State.ctx?_some hc
        split
        · rw [s.endOrder_active hc]
          exact ⟨_, _, rfl, fun e => absurd mem (e ▸ List.not_mem_nil)⟩
        · exact ⟨s.contexts, [], by simp, fun h => ⟨h, rfl⟩⟩
      · exact ⟨s.contexts, [], by simp, fun h => ⟨h, rfl⟩⟩
    obtain ⟨cs, more, e, he⟩ := one
    obtain ⟨cs', more', e', he'⟩ := ih (s.endStanding q st)
    refine ⟨cs', more ++ more', ?_, fun h => ?_⟩
    · rw [List.foldl_cons, e', e, List.append_assoc]
    · rw [e] at he'
      obtain ⟨h1, h2⟩ := he h
      obtain ⟨h3, h4⟩ := he' h1
      exact ⟨h3, by rw [h2, h4]; rfl⟩

/-- Pending slots end in the order given. -/
theorem State.endPosts_eq (st : Status) (ps : List PostEntry) : ∀ s : State,
    ps.foldl (fun s p => s.pushEntry (s.doneEntry p.slot none false st)) s =
      { s with writeQueue := s.writeQueue ++ ps.map fun p => s.doneEntry p.slot none false st } := by
  induction ps with
  | nil => intro s; simp
  | cons p ps ih =>
    intro s
    rw [List.foldl_cons, ih, List.map_cons, ← List.singleton_append, ← List.append_assoc]
    rfl

/-- The writes of the pending slots that end at STOP. -/
def State.postsEntries (s : State) : List QEntry :=
  (sortPosts s.posted).map fun p => s.doneEntry p.slot none false .stopped

/-- Entry to QUIESCING: the pending set is empty, and the writes of pending slots and then of standing orders are queued
(R158). -/
theorem State.stopOrders_rest (s : State) : ∃ cs more,
    s.stopOrders = { s with posted := [], contexts := cs, writeQueue := s.writeQueue ++ s.postsEntries ++ more } ∧
      (s.contexts = [] → cs = [] ∧ more = []) := by
  unfold State.stopOrders
  dsimp only
  rw [State.endPosts_eq]
  obtain ⟨cs, more, e, he⟩ := State.endStandings_rest .stopped (s.contexts.map (·.seq))
    { s with posted := [], writeQueue := s.writeQueue ++ s.postsEntries }
  exact ⟨cs, more, e, he⟩

/-- Entry to QUIESCING with distinct takes: every ACTIVE standing order ends (R158). -/
theorem State.stopOrders_eq (s : State) (h : s.seqsOk) :
    s.stopOrders = { s with
      posted := [], contexts := s.contexts.map (Ctx.ended .stopped),
      writeQueue := s.writeQueue ++ s.postsEntries ++ s.contexts.flatMap (s.endEntries .stopped) } := by
  unfold State.stopOrders
  dsimp only
  rw [State.endPosts_eq]
  exact State.endStandings_eq { s with posted := [], writeQueue := s.writeQueue ++ s.postsEntries } h .stopped

/-! ## STOP (R185) -/

/-- What STOP leaves of LOADING. -/
def State.stopLoading (s : State) : State :=
  if s.part = .loading then { (s.abandonAnchorRead.abandonStart) with loading := none } else s

/-- Entry to QUIESCING from a state: the status block is queued and the orders end. -/
def State.quiesce (s : State) : State := (s.changePart .quiescing).stopOrders

theorem State.stopPart_eq (s : State) : s.stopPart = s.stopLoading.quiesce.checkQuiesce := rfl

/-- `t` is `s` after its entry to QUIESCING: what becomes of the orders and what joins the write queue (R158). -/
structure Quiesced (s t : State) : Prop where
  part : t.part = .quiescing
  posts : PostsStopped s t
  kept : s.writeQueue <+: t.writeQueue
  done : ∀ p ∈ s.posted, s.doneEntry p.slot none false .stopped ∈ t.writeQueue
  standing : s.seqsOk → StandingStopped s t
  others : s.seqsOk → ∀ c ∈ s.contexts, (∀ o p, c.phase = .active o p → o.standing = false) → c ∈ t.contexts
  waits : s.accepted = true → t.writeQueue ≠ []
  idle : s.accepted = false → s.contexts = [] → s.writeQueue = [] → s.posted = [] → t.contexts = [] ∧ t.writeQueue = []
  rest : { t with part := s.part, posted := s.posted, contexts := s.contexts, writeQueue := s.writeQueue,
                  spacing := s.spacing } = s

theorem Ctx.ended_standing {c : Ctx} {o : Order} {p : Progress} (h : c.phase = .active o p) (ho : o.standing = true)
    (st : Status) : c.ended st = { c with phase := .closing st true } := by
  unfold Ctx.ended
  rw [h]
  exact if_pos ho

theorem Ctx.ended_other {c : Ctx} (h : ∀ o p, c.phase = .active o p → o.standing = false) (st : Status) :
    c.ended st = c := by
  unfold Ctx.ended
  split
  · next o p e => rw [h o p e]; rfl
  all_goals rfl

theorem State.endEntries_standing {s : State} {c : Ctx} {o : Order} {p : Progress} (h : c.phase = .active o p)
    (ho : o.standing = true) (st : Status) :
    s.endEntries st c = [s.resultEntry c.slot (s.standingResult o p), s.doneEntry c.slot (some c.seq) false st] := by
  unfold State.endEntries
  rw [h]
  exact if_pos ho

theorem State.endEntries_queueStatus (s : State) : s.queueStatus.endEntries = s.endEntries := by
  unfold State.queueStatus
  split <;> rfl

theorem State.quiesce_quiesced (s : State) : Quiesced s s.quiesce := by
  obtain ⟨cs, more, e, hempty⟩ := (s.changePart .quiescing).stopOrders_rest
  have rest : { s.changePart .quiescing with writeQueue := s.writeQueue, spacing := s.spacing } =
    { s with part := .quiescing } := State.queueStatus_rest _
  have contexts : (s.changePart .quiescing).contexts = s.contexts := (congrArg State.contexts rest :)
  have posted : (s.changePart .quiescing).posted = s.posted := (congrArg State.posted rest :)
  have anchor : (s.changePart .quiescing).anchor = s.anchor := (congrArg State.anchor rest :)
  have entries : (s.changePart .quiescing).postsEntries = s.postsEntries := by
    unfold State.postsEntries State.doneEntry State.slotAddr
    rw [posted, anchor]
  have same : (s.changePart .quiescing).endEntries = s.endEntries := State.endEntries_queueStatus _
  have kept : s.writeQueue <+: (s.changePart .quiescing).writeQueue :=
    (State.queueStatus_only { s with part := .quiescing }).queueKept
  rw [contexts] at hempty
  have queue : s.quiesce.writeQueue = (s.changePart .quiescing).writeQueue ++ s.postsEntries ++ more := by
    rw [← entries]
    exact congrArg State.writeQueue e
  have done : ∀ p ∈ s.posted, s.doneEntry p.slot none false .stopped ∈ s.quiesce.writeQueue := fun p hp => by
    rw [queue]
    exact List.mem_append_left _ (List.mem_append_right _
      (List.mem_map_of_mem ((sortPosts_perm _).mem_iff.2 hp)))
  have ends : s.seqsOk → s.quiesce.contexts = s.contexts.map (Ctx.ended .stopped) ∧
      ∀ c ∈ s.contexts, ∀ q ∈ s.endEntries .stopped c, q ∈ s.quiesce.writeQueue := fun h => by
    have eq := (s.changePart .quiescing).stopOrders_eq (by unfold State.seqsOk; rw [contexts]; exact h)
    refine ⟨(congrArg State.contexts eq).trans (by rw [contexts]), fun c hc q hq => ?_⟩
    rw [show s.quiesce.writeQueue = _ from congrArg State.writeQueue eq]
    exact List.mem_append_right _ (List.mem_flatMap.2 ⟨c, contexts ▸ hc, by rw [same]; exact hq⟩)
  constructor
  case part =>
    unfold State.quiesce
    rw [e]
    exact (congrArg State.part rest :)
  case posts =>
    refine ⟨congrArg State.posted e, sortPosts s.posted, more.filter (fun q => !q.kind.isStatus), sortPosts_perm _, ?_,
      fun b hb => sortPosts_sorted b _ hb⟩
    rw [queue, List.filter_append, List.filter_append, show (s.changePart .quiescing).writeQueue.filter _ = _ from
      State.queueStatus_filter _]
    congr 2
    exact List.filter_eq_self.2 fun q hq => by
      obtain ⟨p, _, rfl⟩ := List.mem_map.1 hq
      rfl
  case kept => rw [queue, List.append_assoc]; exact kept.trans (List.prefix_append _ _)
  case done => exact done
  case standing =>
    intro h c hc o p hph ho
    obtain ⟨hctx, hent⟩ := ends h
    have he := hent c hc
    rw [State.endEntries_standing hph ho] at he
    refine ⟨he _ (by simp), he _ (by simp), ?_⟩
    rw [hctx, ← Ctx.ended_standing hph ho]
    exact List.mem_map_of_mem hc
  case others =>
    intro h c hc ho
    rw [(ends h).1, ← Ctx.ended_other ho .stopped]
    exact List.mem_map_of_mem hc
  case waits =>
    intro ha h
    rw [queue] at h
    have h := (List.append_eq_nil_iff.1 (List.append_eq_nil_iff.1 h).1).1
    exact State.queueStatus_ne_nil (s := { s with part := .quiescing }) ha h
  case idle =>
    intro ha hc hq hp
    obtain ⟨hcs, hmore⟩ := hempty hc
    refine ⟨(congrArg State.contexts e).trans hcs, ?_⟩
    rw [queue, hmore]
    have none : (s.changePart .quiescing).writeQueue = [] :=
      (congrArg State.writeQueue (State.queueStatus_unaccepted (s := { s with part := .quiescing }) ha)).trans hq
    rw [none]
    unfold State.postsEntries
    rw [hp]
    rfl
  case rest =>
    unfold State.quiesce
    rw [e]
    exact (congrArg (fun u : State => { u with part := s.part, posted := s.posted, contexts := s.contexts }) rest :)

/-- QUIESCING goes on, ends at once where no anchor has been accepted, or queues the IDLE status entry (R185). -/
theorem State.checkQuiesce_cases (s : State) :
    s.checkQuiesce = s ∧ ¬(s.part = .quiescing ∧ s.contexts = [] ∧ s.writeQueue = []) ∨
      (s.part = .quiescing ∧ s.contexts = [] ∧ s.writeQueue = []) ∧
        s.checkQuiesce = if s.accepted then s.queueMarked .idle else s.enterIdle := by
  unfold State.checkQuiesce
  split
  · next h => exact .inr ⟨h, rfl⟩
  · next h => exact .inl ⟨rfl, h⟩

/-- A part that enters QUIESCING stays in it, but for one without an accepted anchor where nothing waits (R185). -/
theorem Quiesced.check {s t : State} (q : Quiesced s t) : t.checkQuiesce = t ∧ ¬(t.contexts = [] ∧ t.writeQueue = []) ∨
    s.accepted = false ∧ t.checkQuiesce = t.enterIdle := by
  have accepted : t.accepted = s.accepted := (congrArg State.accepted q.rest :)
  rcases t.checkQuiesce_cases with ⟨e, h⟩ | ⟨h, e⟩
  · exact .inl ⟨e, fun x => h ⟨q.part, x⟩⟩
  · rw [accepted] at e
    cases ha : s.accepted with
    | true => exact absurd h.2.2 (q.waits ha)
    | false => exact .inr ⟨rfl, by rw [e, ha]; rfl⟩

/-- A START load, and the anchor read, are left behind with LOADING (R185). -/
theorem State.stopLoading_loading {s : State} (h : s.part = .loading) : ∃ queue ld anchors rows,
    s.stopLoading = { s with
      loading := none, anchorRead := .idle, staleAnchorReads := anchors, loadQueue := queue,
      load := ld, stalePlanReads := rows } ∧ LoadReq.start ∉ queue ∧ ∀ x, ld = some x → x.req ≠ .start := by
  unfold State.stopLoading
  rw [if_pos h]
  have queue : LoadReq.start ∉ s.loadQueue.filter fun r => !decide (r = LoadReq.start) := by simp
  unfold State.abandonStart
  dsimp only
  split
  · next ld hl =>
    split
    · unfold State.abandonLoad
      dsimp only
      split
      · exact ⟨_, none, _, _, rfl, queue, nofun⟩
      · next hn => exact absurd (hn.symm.trans hl) nofun
    · next hr =>
      exact ⟨_, _, _, _, rfl, queue, fun x hx => Option.some.inj (hl.symm.trans hx) ▸ hr⟩
  · next hl =>
    exact ⟨_, _, _, _, rfl, queue, fun x hx => absurd (hl.symm.trans hx) nofun⟩

/-- Settles O17. -/
theorem stopEntersQuiescing : Obligations.StopEntersQuiescing := by
  intro s
  refine ⟨fun hr hl => ?_, fun hr ha hs => ?_, fun hl => ?_⟩
  · refine congrArg Host.Outcome.next ?_
    unfold State.stopWrite
    rw [if_neg (not_or.2 ⟨hr, hl⟩)]
  · have q := s.quiesce_quiesced
    refine ⟨s.quiesce, congrArg Host.Outcome.next ?_, q.part, q.posts, q.done, q.standing hs, q.others hs, q.kept, q.rest⟩
    unfold State.stopWrite
    rw [if_pos (.inl hr), s.stopPart_eq]
    have stay : s.stopLoading = s := if_neg (by rw [hr]; decide)
    rw [stay]
    exact if_neg fun e => q.waits ha e.2.2
  · obtain ⟨queue, ld, anchors, rows, e, hqueue, hld⟩ := State.stopLoading_loading hl
    have q := s.stopLoading.quiesce_quiesced
    obtain ⟨t, ht⟩ : ∃ t, t = s.stopLoading.quiesce := ⟨_, rfl⟩
    rw [← ht, e] at q
    have stop : exec .stop s = .next t.checkQuiesce := by
      rw [ht]
      refine congrArg Host.Outcome.next ?_
      unfold State.stopWrite
      rw [if_pos (.inr hl), s.stopPart_eq]
    have loading : t.loading = none := (congrArg State.loading q.rest :)
    have read : t.anchorRead = .idle := (congrArg State.anchorRead q.rest :)
    have waiting : t.loadQueue = queue := (congrArg State.loadQueue q.rest :)
    have load : t.load = ld := (congrArg State.load q.rest :)
    have links : t.links = s.links := (congrArg State.links q.rest :)
    have plan : t.rows = s.rows := (congrArg State.rows q.rest :)
    have base : t.planBase = s.planBase := (congrArg State.planBase q.rest :)
    have anchor : t.anchor = s.anchor := (congrArg State.anchor q.rest :)
    have mem : t.hostMem = s.hostMem := (congrArg State.hostMem q.rest :)
    rw [← waiting] at hqueue
    rw [← load] at hld
    rcases q.check with ⟨c, hne⟩ | ⟨ha, c⟩
    · exact ⟨t, stop.trans (congrArg _ c), loading, read, hqueue, hld, ⟨q.posts.left, q.posts.done⟩, q.done, q.kept,
        q.standing, q.others,
        fun _ => q.part, fun a b c d => absurd (q.idle a b c d) hne, links, plan, base, anchor, mem⟩
    · exact ⟨t.enterIdle, stop.trans (congrArg _ c), loading, read, hqueue, hld, ⟨q.posts.left, q.posts.done⟩, q.done,
        q.kept, q.standing, q.others, fun h => absurd (ha.symm.trans h) Bool.false_ne_true, fun _ _ _ _ => rfl,
        links, plan, base, anchor, mem⟩

/-! ## RESUME (R186) -/

/-- The reads that faulted are made again (R25, R153, R184). -/
def State.remake (s : State) : State := s.rereadSlots.resumeLoad.resumeAnchor

theorem State.remake_eq (s : State) : s.remake = { s with
    contexts := s.contexts.map fun c => if c.phase = .reading true then { c with phase := .reading false } else c,
    load := s.load.map fun ld => { ld with reading := true },
    anchorRead := if s.anchorRead = .faulted then .outstanding else s.anchorRead } := by
  have slots : s.rereadSlots.contexts =
      s.contexts.map fun c => if c.phase = .reading true then { c with phase := .reading false } else c := by
    refine List.map_congr_left fun c _ => ?_
    obtain ⟨slot, prio, seq, phase⟩ := c
    cases phase with
    | reading f => cases f <;> rfl
    | active o p => rfl
    | closing st b => rfl
  unfold State.remake State.resumeLoad State.resumeAnchor
  rw [← slots]
  unfold State.rereadSlots
  cases hl : s.load <;> cases hr : s.anchorRead <;> simp [hl, hr]

/-- What holds of the status block alone holds beside the reads that are made again. -/
theorem StatusOnly.remake {s t : State} (h : StatusOnly s t) : StatusOnly s.remake t.remake := by
  have rest := congrArg State.remake h.rest
  rw [State.remake_eq, State.remake_eq] at rest
  rw [State.remake_eq, State.remake_eq]
  exact ⟨rest, h.queue⟩

theorem State.resumePart_eq (s : State) (p : PartState) :
    s.resumePart p = (({ s with resume := none } : State).changePart p).remake.checkQuiesce := rfl

/-- Settles O18. -/
theorem resumeGoesBack : Obligations.ResumeGoesBack := by
  intro s
  have taken : ∀ p, s.part = .faulted → s.resume = some p → exec .resume s = .next (s.resumePart p) := by
    intro p hp hr
    refine congrArg Host.Outcome.next ?_
    unfold State.resumeWrite
    rw [hp, hr]
  refine ⟨fun hf => congrArg Host.Outcome.next ?_, fun p hf hr => ⟨fun hor => ?_, fun hp hc hq ha => ?_⟩⟩
  · unfold State.resumeWrite
    split
    · next e _ => exact absurd e hf
    · rfl
  · rw [taken p hf hr, s.resumePart_eq]
    have only : StatusOnly ({ s with part := p, resume := none } : State) (({ s with resume := none } : State).changePart p) :=
      State.queueStatus_only _
    have again := only.remake
    refine ⟨_, rfl, ?_⟩
    rcases State.checkQuiesce_cases (({ s with resume := none } : State).changePart p).remake with ⟨e, _⟩ | ⟨⟨h1, h2, h3⟩, _⟩
    · rw [e]
      rw [State.remake_eq { s with part := p, resume := none }] at again
      exact again
    · exfalso
      rw [again.part, State.remake_eq] at h1
      have contexts : (({ s with resume := none } : State).changePart p).contexts = s.contexts :=
        (congrArg State.contexts only.rest :)
      rw [State.remake_eq] at h2 h3
      have h2 : s.contexts = [] := contexts ▸ List.map_eq_nil_iff.1 h2
      have kept := only.queueKept
      rw [show (({ s with resume := none } : State).changePart p).writeQueue = [] from h3] at kept
      rcases hor with h | h | h | h
      · exact h h1
      · exact h h2
      · exact h (List.prefix_nil.1 kept)
      · exact State.queueStatus_ne_nil (s := { s with part := p, resume := none }) h h3
  · rw [taken p hf hr, s.resumePart_eq]
    have stay : ({ s with resume := none } : State).changePart p = { s with part := p, resume := none } :=
      State.queueStatus_unaccepted (s := { s with part := p, resume := none }) ha
    rw [stay]
    refine ⟨_, rfl, ?_⟩
    have empty : (s.contexts.map fun c => if c.phase = .reading true then { c with phase := .reading false } else c) = [] := by
      rw [hc]; rfl
    rcases State.checkQuiesce_cases ({ s with part := p, resume := none } : State).remake with ⟨_, h⟩ | ⟨_, e⟩
    · rw [State.remake_eq] at h
      exact absurd ⟨hp, empty, hq⟩ h
    · rw [e, State.remake_eq]
      simp only [ha]
      exact ⟨rfl, rfl⟩

end Sys2Proof.Machine
end


section
/-! PROOFS. CP_RESET: what it clears, and that self-checks end on the ports of each engine alone. -/

namespace Sys2Proof.Machine

-- One declaration at a time: the threads of a parallel elaboration exceed the memory of the check.
set_option Elab.async false

/-! ## What a step on the ports of one engine leaves -/

/-- `t` is `s` but for one engine and the links of its two ports. -/
structure PortsOnly (e : EngineId) (s t : State) : Prop where
  rest : { t with links := s.links, engines := s.engines } = s
  others : ∀ k, k ≠ e → t.engine k = s.engine k
  links : ∀ l, engineOfLink l ≠ e → t.link l = s.link l

theorem PortsOnly.refl (e : EngineId) (s : State) : PortsOnly e s s := ⟨rfl, fun _ _ => rfl, fun _ _ => rfl⟩

theorem PortsOnly.trans {e : EngineId} {s t u : State} (h : PortsOnly e s t) (k : PortsOnly e t u) : PortsOnly e s u where
  rest := (congrArg (fun x : State => { x with links := s.links, engines := s.engines }) k.rest :).trans h.rest
  others i hi := (k.others i hi).trans (h.others i hi)
  links l hl := (k.links l hl).trans (h.links l hl)

theorem PortsOnly.part {e : EngineId} {s t : State} (h : PortsOnly e s t) : t.part = s.part :=
  (congrArg State.part h.rest :)

/-- In IDLE a step of a link touches the link alone (R14, R193). -/
theorem State.onLink_idle {s : State} (h : s.part = .idle) (l : LinkId) (f : Env → Link → Link) :
    s.onLink l f = s.putLink l (f (s.env l) (s.link l)) := by
  have clean : ∀ t : State, t.part = .idle → t.markDirty l = t := fun t ht => if_pos (.inl ht)
  have quiet : ∀ t : State, t.part = .idle → t.statusChange = t := fun t ht => if_neg fun e => e.2 ht
  unfold State.onLink
  dsimp only
  rw [clean (s.putLink l _) h, ite_self, quiet (s.putLink l _) h, ite_self]

theorem State.onLink_portsOnly {s : State} (h : s.part = .idle) {l : LinkId} {e : EngineId} (hl : engineOfLink l = e)
    (f : Env → Link → Link) : PortsOnly e s (s.onLink l f) := by
  rw [State.onLink_idle h]
  exact ⟨rfl, fun _ _ => rfl, fun k hk => s.link_putLink_other _ fun x => hk (x ▸ hl)⟩

/-- A release whose list holds links alone: the engine is FREE, or is granted to the head, and no record changes (R115). -/
theorem State.grantNext_links (s : State) (e : EngineId) (list : List WaitEntry) (self : ∀ w ∈ list, w.who.isSelf = false)
    (on : ∀ w ∈ list, w.who.on e) :
    PortsOnly e s (s.grantNext e list) ∧ (∀ l, ((s.grantNext e list).link l).record = (s.link l).record) ∧
      (∀ c, ((s.grantNext e list).engine e).owner ≠ some (.self c)) ∧
      ∀ w ∈ ((s.grantNext e list).engine e).waiting, w.who.isSelf = false := by
  cases list with
  | nil =>
    unfold State.grantNext
    refine ⟨⟨rfl, fun k hk => s.engine_putEngine_other _ hk, fun _ _ => rfl⟩, fun _ => rfl, ?_⟩
    rw [State.engine_putEngine]
    exact ⟨nofun, nofun⟩
  | cons w rest =>
    obtain ⟨who, prio⟩ := w
    cases who with
    | self c => exact Bool.noConfusion (show true = false from self _ List.mem_cons_self)
    | link l =>
      have hl : engineOfLink l = e := on _ List.mem_cons_self
      unfold State.grantNext State.grantLink
      refine ⟨⟨rfl, fun k hk => ?_, fun k hk => ?_⟩, fun k => ?_, ?_⟩
      · exact s.engine_putEngine_other _ hk
      · exact State.link_send_other _ _ fun x => hk (x ▸ hl)
      · by_cases hk : k = l
        · rw [hk, State.link_send]; rfl
        · rw [State.link_send_other _ _ hk]; rfl
      · have same : ∀ en : Engine, ((s.putEngine e en).send l .grant).engine e = en := fun en => s.engine_putEngine e en
        dsimp only
        rw [same]
        exact ⟨nofun, fun w hw => self w (List.mem_cons_of_mem _ hw)⟩

/-! ## The self-check flag -/

/-- A step that leaves the flag of its own link off leaves it off on every link. -/
theorem State.onLink_flagOff {s : State} {l : LinkId} (h : (s.link l).record.selfCheck = false) (k : LinkId)
    (f : Env → Link → Link) (hf : ∀ e lk, lk.record.selfCheck = false → (f e lk).record.selfCheck = false) :
    ((s.onLink k f).link l).record.selfCheck = false := by
  by_cases hk : l = k
  · subst hk
    rw [State.link_onLink]
    exact hf _ _ h
  · rw [(s.onLink_only k f).others l hk]
    exact h

theorem Link.afterSelfCheck_flag (e : Env) (lk : Link) : (lk.afterSelfCheck e).record.selfCheck = lk.record.selfCheck := by
  unfold Link.afterSelfCheck
  split
  · rw [Link.move_record, LinkRecord.move_selfCheck]
  · rfl

theorem linkOf_portOf (l : LinkId) : linkOf (portOf l) (legOf l) = l := by
  apply Fin.ext
  change l.val / 2 * 2 + l.val % 2 = l.val
  omega

theorem portOf_linkOf (p : PortId) (leg : Fin 2) : portOf (linkOf p leg) = p := by
  apply Fin.ext
  change (p.val * 2 + leg.val) / 2 = p.val
  omega

theorem leg_cases : ∀ leg : Fin 2, leg = 0 ∨ leg = 1 := by decide

/-- A link is leg 0 or leg 1 of its port. -/
theorem eq_linkOf {l : LinkId} {p : PortId} (h : p = portOf l) : l = linkOf p 0 ∨ l = linkOf p 1 := by
  subst h
  rcases leg_cases (legOf l) with e | e
  · exact .inl (by rw [← e, linkOf_portOf])
  · exact .inr (by rw [← e, linkOf_portOf])

/-! ## The abort of one engine's self-check (R117, R131) -/

/-- What the abort at one engine leaves of self-checks: none at the engine, no flag on the owner's port. -/
structure SelfAborted (e : EngineId) (s t : State) : Prop where
  owner : ∀ c, (t.engine e).owner ≠ some (.self c)
  waiting : ∀ w ∈ (t.engine e).waiting, w.who.isSelf = false
  kept : (∀ c, (s.engine e).owner ≠ some (.self c)) → ∀ l, t.link l = s.link l
  off : ∀ c, (s.engine e).owner = some (.self c) → ∀ l, c.port = portOf l → (t.link l).record.selfCheck = false

/-- Both links of a port take a step, leg 0 before leg 1. -/
def State.onPort (s : State) (p : PortId) (f : Env → Link → Link) : State :=
  (s.onLink (linkOf p 0) f).onLink (linkOf p 1) f

theorem State.onPort_portsOnly {s : State} (h : s.part = .idle) {e : EngineId} {p : PortId} (hp : engineOf p = e)
    (f : Env → Link → Link) : PortsOnly e s (s.onPort p f) := by
  have mine : ∀ leg, engineOfLink (linkOf p leg) = e := fun leg => by
    unfold engineOfLink
    rw [portOf_linkOf, hp]
  have first := State.onLink_portsOnly h (mine 0) f
  exact first.trans (State.onLink_portsOnly (first.part.trans h) (mine 1) f)

@[simp] theorem State.onPort_engines (s : State) (p : PortId) (f : Env → Link → Link) : (s.onPort p f).engines = s.engines := by
  unfold State.onPort
  rw [State.onLink_engines, State.onLink_engines]

theorem State.onPort_flagOff {s : State} {l : LinkId} (h : (s.link l).record.selfCheck = false) (p : PortId)
    (f : Env → Link → Link) (hf : ∀ e lk, lk.record.selfCheck = false → (f e lk).record.selfCheck = false) :
    ((s.onPort p f).link l).record.selfCheck = false :=
  State.onLink_flagOff (State.onLink_flagOff h _ f hf) _ f hf

/-- Both links of a port drop the flag. -/
theorem State.onPort_dropFlag (s : State) {p : PortId} {l : LinkId} (h : p = portOf l) :
    ((s.onPort p fun _ lk => lk.selfCheckFlagOff).link l).record.selfCheck = false := by
  have off : ∀ (u : State) (k : LinkId), ((u.onLink k fun _ lk => lk.selfCheckFlagOff).link k).record.selfCheck = false :=
    fun u k => by rw [State.link_onLink]; rfl
  unfold State.onPort
  rcases eq_linkOf h with rfl | rfl
  · exact State.onLink_flagOff (off s _) _ _ fun _ _ _ => rfl
  · exact off _ _

theorem State.leaveSelfCheck_eq (s : State) (e : EngineId) (p : PortId) (list : List WaitEntry) :
    s.leaveSelfCheck e p list = ((s.onPort p fun _ lk => lk.selfCheckFlagOff).grantNext e list).onPort p
      fun env lk => lk.afterSelfCheck env := rfl

theorem State.leaveSelfCheck_aborts {s : State} (h : s.part = .idle) {e : EngineId} {p : PortId} (hp : engineOf p = e)
    (list : List WaitEntry) (self : ∀ w ∈ list, w.who.isSelf = false) (on : ∀ w ∈ list, w.who.on e) :
    PortsOnly e s (s.leaveSelfCheck e p list) ∧
      (∀ c, ((s.leaveSelfCheck e p list).engine e).owner ≠ some (.self c)) ∧
      (∀ w ∈ ((s.leaveSelfCheck e p list).engine e).waiting, w.who.isSelf = false) ∧
      ∀ l, p = portOf l → ((s.leaveSelfCheck e p list).link l).record.selfCheck = false := by
  have dropped := State.onPort_portsOnly h hp fun _ lk => lk.selfCheckFlagOff
  have off := fun l => s.onPort_dropFlag (p := p) (l := l)
  rw [s.leaveSelfCheck_eq]
  generalize s.onPort p (fun _ lk => lk.selfCheckFlagOff) = a at dropped off ⊢
  obtain ⟨granted, records, owner, waiting⟩ := a.grantNext_links e list self on
  generalize a.grantNext e list = b at granted records owner waiting ⊢
  have before := dropped.trans granted
  have engine : (b.onPort p fun env lk => lk.afterSelfCheck env).engine e = b.engine e := by
    unfold State.engine
    rw [State.onPort_engines]
  rw [engine]
  refine ⟨before.trans (State.onPort_portsOnly (before.part.trans h) hp _), owner, waiting, fun l hl => ?_⟩
  refine State.onPort_flagOff ((congrArg LinkRecord.selfCheck (records l)).trans (off l hl)) _ _ fun env lk hlk => ?_
  exact (lk.afterSelfCheck_flag env).trans hlk

theorem State.abortSelf_aborts {s : State} (h : s.part = .idle) (ok : s.enginesOk) (e : EngineId) :
    PortsOnly e s (s.abortSelf e) ∧ SelfAborted e s (s.abortSelf e) := by
  have self : ∀ w ∈ (s.engine e).waiting.filter (fun w => !w.who.isSelf), w.who.isSelf = false := fun w hw => by
    simpa using (List.mem_filter.1 hw).2
  have on : ∀ w ∈ (s.engine e).waiting.filter (fun w => !w.who.isSelf), w.who.on e := fun w hw =>
    (ok e).2 w (List.mem_filter.1 hw).1
  unfold State.abortSelf
  dsimp only
  split
  · next c ho =>
    obtain ⟨k, owner, waiting, off⟩ := State.leaveSelfCheck_aborts h ((ok e).1 _ ho) _ self on
    refine ⟨k, owner, waiting, fun hn => absurd ho (hn c), fun d hd => ?_⟩
    rw [ho] at hd
    obtain rfl := Owner.self.inj (Option.some.inj hd)
    exact off
  all_goals
    next ho =>
    refine ⟨⟨rfl, fun k hk => s.engine_putEngine_other _ hk, fun _ _ => rfl⟩, ?_, ?_, fun _ _ => rfl, fun d hd => ?_⟩
    · intro c
      rw [State.engine_putEngine]
      dsimp only
      rw [ho]
      exact nofun
    · rw [State.engine_putEngine]
      exact self
    · rw [ho] at hd
      exact absurd hd nofun

/-- The aborts at some engines, in turn. -/
theorem State.abortSelfs_abort (es : List EngineId) (distinct : es.Nodup) : ∀ s : State, s.part = .idle → s.enginesOk →
    { es.foldl (fun s e => s.abortSelf e) s with links := s.links, engines := s.engines } = s ∧
      (∀ k, k ∉ es → (es.foldl (fun s e => s.abortSelf e) s).engine k = s.engine k) ∧
      (∀ l, engineOfLink l ∉ es → (es.foldl (fun s e => s.abortSelf e) s).link l = s.link l) ∧
      ∀ e ∈ es, ∃ u v : State, SelfAborted e u v ∧ u.engine e = s.engine e ∧
        (es.foldl (fun s e => s.abortSelf e) s).engine e = v.engine e ∧
        ∀ l, engineOfLink l = e → u.link l = s.link l ∧ (es.foldl (fun s e => s.abortSelf e) s).link l = v.link l := by
  induction es with
  | nil => exact fun s _ _ => ⟨rfl, fun _ _ => rfl, fun _ _ => rfl, nofun⟩
  | cons e es ih =>
    intro s h ok
    obtain ⟨notin, distinct⟩ := List.nodup_cons.1 distinct
    obtain ⟨only, aborted⟩ := State.abortSelf_aborts h ok e
    obtain ⟨rest, others, links, each⟩ := ih distinct (s.abortSelf e) (only.part.trans h) ((s.abortSelf_keeps e).engines ok)
    rw [List.foldl_cons]
    refine ⟨?_, fun k hk => ?_, fun l hl => ?_, fun k hk => ?_⟩
    · exact (congrArg (fun x : State => { x with links := s.links, engines := s.engines }) rest :).trans only.rest
    · rw [List.mem_cons, not_or] at hk
      exact (others k hk.2).trans (only.others k hk.1)
    · rw [List.mem_cons, not_or] at hl
      exact (links l hl.2).trans (only.links l hl.1)
    · rcases List.mem_cons.1 hk with rfl | hk
      · exact ⟨s, s.abortSelf k, aborted, rfl, others k notin, fun l hl => ⟨rfl, links l (hl ▸ notin)⟩⟩
      · have ne : k ≠ e := fun x => notin (x ▸ hk)
        obtain ⟨u, v, a, h1, h2, h3⟩ := each k hk
        exact ⟨u, v, a, h1.trans (only.others k ne), h2, fun l hl =>
          ⟨(h3 l hl).1.trans (only.links l (hl ▸ ne)), (h3 l hl).2⟩⟩

/-! ## CP_RESET (R188) -/

theorem mem_allBelow {n : Nat} (i : Fin n) : i ∈ allBelow n := by
  induction n with
  | zero => exact i.elim0
  | succ n ih =>
    unfold allBelow
    rw [List.mem_append, List.mem_map, List.mem_singleton]
    rcases Fin.eq_castSucc_or_eq_last i with ⟨j, rfl⟩ | rfl
    · exact .inl ⟨j, ih j, rfl⟩
    · exact .inr rfl

/-- What CP_RESET clears beside the self-checks, by value (R188). -/
theorem State.clearControl_eq (s : State) : ∃ stale, s.clearControl = { s with
    stalePlanReads := stale, load := none, anchorRead := .idle,
    staleAnchorReads := s.staleAnchorReads + bit (decide (s.anchorRead = .outstanding)),
    part := .idle, resume := none, attn := .none, loading := none, posted := [], postMark := 0, contexts := [],
    selfRequests := [], loadQueue := [], writeQueue := [], dirty := [], lastWritten := Bank.fill 64 none,
    writing := Writing.atReset s.writing, retry := none, log := s.log.map fun _ => none, notices := 0,
    coalesce := 0, holdoff := none, faultAddr := 0, faultKind := .none, faultSource := .none, multiple := false,
    statusDue := false, spacing := none } := by
  unfold State.clearControl State.abandonLoad
  cases h : s.load with
  | none =>
    refine ⟨s.stalePlanReads, ?_⟩
    dsimp only [State.abandonAnchorRead]
    congr 1
  | some ld => exact ⟨_, rfl⟩

/-- After the aborts at every engine no engine holds a self-check, no other link has changed, and no link of an owner's
port shows the flag (R117, R131). -/
theorem State.abortSelfs_all {s : State} (h : s.part = .idle) (ok : s.enginesOk) {es : List EngineId} (distinct : es.Nodup)
    (all : ∀ e, e ∈ es) {t : State} (ht : t = es.foldl (fun s e => s.abortSelf e) s) :
    { t with links := s.links, engines := s.engines } = s ∧
      (∀ e, (∀ c, (t.engine e).owner ≠ some (.self c)) ∧ ∀ w ∈ (t.engine e).waiting, w.who.isSelf = false) ∧
      (∀ l, (∀ c, (s.engine (engineOfLink l)).owner ≠ some (.self c)) → t.link l = s.link l) ∧
      ∀ l c, (s.engine (engineOfLink l)).owner = some (.self c) → c.port = portOf l →
        (t.link l).record.selfCheck = false := by
  obtain ⟨rest, _, _, each⟩ := State.abortSelfs_abort es distinct s h ok
  rw [← ht] at rest each
  refine ⟨rest, fun e => ?_, fun l hno => ?_, fun l c hc hp => ?_⟩
  · obtain ⟨u, v, a, _, he, _⟩ := each e (all e)
    rw [he]
    exact ⟨a.owner, a.waiting⟩
  · obtain ⟨u, v, a, he, _, hl⟩ := each (engineOfLink l) (all _)
    obtain ⟨hu, hv⟩ := hl l rfl
    exact hv.trans ((a.kept (he ▸ hno) l).trans hu)
  · obtain ⟨u, v, a, he, _, hl⟩ := each (engineOfLink l) (all _)
    rw [(hl l rfl).2]
    exact a.off c (he ▸ hc) l hp

/-- Settles O19. -/
theorem controlResetKeepsTheLinks : Obligations.ControlResetKeepsTheLinks := by
  intro s ok
  obtain ⟨stale, hc⟩ := s.clearControl_eq
  obtain ⟨c, hcc⟩ : ∃ c, c = s.clearControl := ⟨_, rfl⟩
  obtain ⟨t, ht⟩ : ∃ t, t = c.abortSelfChecks := ⟨_, rfl⟩
  have exec : exec .cpReset s = .next t := by rw [ht, hcc]; rfl
  refine ⟨t, exec, ?_⟩
  rw [← hcc] at hc
  have distinct : (allBelow 16).Nodup := by decide +kernel
  have link : ∀ l, c.link l = s.link l := State.link_congr (by rw [hc])
  have engine : ∀ e, c.engine e = s.engine e := fun e => by
    unfold State.engine
    rw [hc]
  obtain ⟨rest, free, kept, off⟩ := State.abortSelfs_all (by rw [hc]) ((State.enginesOk_congr (by rw [hc])).2 ok)
    distinct mem_allBelow ht
  have kept : ∀ l, (∀ c, (s.engine (engineOfLink l)).owner ≠ some (.self c)) → t.link l = s.link l :=
    fun l hl => (kept l (engine _ ▸ hl)).trans (link l)
  have off : ∀ l c, (s.engine (engineOfLink l)).owner = some (.self c) → c.port = portOf l →
    (t.link l).record.selfCheck = false := fun l c ho hp => off l c (engine _ ▸ ho) hp
  obtain ⟨links, engines, back⟩ : ∃ links engines, t = { c with links := links, engines := engines } :=
    ⟨t.links, t.engines, (congrArg (fun x : State => { x with links := t.links, engines := t.engines }) rest :)⟩
  clear ht hcc exec rest link engine
  subst back hc
  exact ⟨rfl, rfl, rfl, rfl, rfl, rfl, rfl, rfl, rfl, rfl, rfl, fun l b g body st n i ended h => congrArg Writing.atReset h,
    fun w ws h => congrArg Writing.atReset h, fun w h => congrArg Writing.atReset h, fun h => congrArg Writing.atReset h,
    rfl, rfl, rfl, rfl, rfl, rfl, rfl, rfl, rfl, List.map_const' .., fun l => Bank.getElem_fill 64 _ l.val l.isLt,
    rfl, rfl, rfl, rfl, rfl, rfl, rfl, rfl, rfl, rfl, rfl, rfl, rfl, rfl, rfl, rfl, free, kept, off⟩

end Sys2Proof.Machine
end


section
/-! PROOFS. The fault path, a step of every link in turn, and the anchor read. -/

namespace Sys2Proof.Machine

-- One declaration at a time: the threads of a parallel elaboration exceed the memory of the check.
set_option Elab.async false

/-! ## The fault path (R187, R190) -/

/-- `t` is `s` after the fault path has taken a fault in a part state that works. -/
structure Faulted (s t : State) (addr : Nat) (kind : FaultKind) (source : FaultSource) : Prop where
  part : t.part = .faulted
  resume : t.resume = some s.part
  captured : s.notices &&& Notice.busFault = 0 → t.faultAddr = BitVec.ofNat 64 addr ∧ t.faultKind = kind ∧
    t.faultSource = source ∧ t.multiple = false ∧ t.notices = s.notices ||| Notice.busFault
  again : s.notices &&& Notice.busFault ≠ 0 → t.multiple = true ∧ t.notices = s.notices ∧ t.faultAddr = s.faultAddr ∧
    t.faultKind = s.faultKind ∧ t.faultSource = s.faultSource
  queue : t.writeQueue = s.writeQueue ∨ t.writeQueue = s.writeQueue ++ [⟨.status .plain, []⟩]
  rest : { t with part := s.part, resume := s.resume, notices := s.notices, faultAddr := s.faultAddr,
                  faultKind := s.faultKind, faultSource := s.faultSource, multiple := s.multiple,
                  messages := s.messages, writeQueue := s.writeQueue, spacing := s.spacing } = s

theorem State.captureFault_rest (s : State) (addr : Nat) (kind : FaultKind) (source : FaultSource) :
    { s.captureFault addr kind source with
      notices := s.notices, faultAddr := s.faultAddr, faultKind := s.faultKind, faultSource := s.faultSource,
      multiple := s.multiple, messages := s.messages } = s := by
  unfold State.captureFault
  split <;> rfl

/-- In LOADING, RUNNING and QUIESCING a bus fault makes the part FAULTED (R187). -/
theorem State.takeFault_works (s : State) (h : s.part ∈ [PartState.loading, .running, .quiescing]) (addr : Nat)
    (kind : FaultKind) (source : FaultSource) : Faulted s (s.takeFault addr kind source) addr kind source := by
  have rest := s.captureFault_rest addr kind source
  obtain ⟨u, hu⟩ : ∃ u, u = s.captureFault addr kind source := ⟨_, rfl⟩
  rw [← hu] at rest
  have part : u.part = s.part := (congrArg State.part rest :)
  have entered : s.takeFault addr kind source = ({ u with part := .faulted, resume := some s.part } : State).queueStatus := by
    unfold State.takeFault State.enterFaulted
    rw [← hu, part]
    simp only [List.mem_cons, List.not_mem_nil, or_false] at h
    rcases h with h | h | h <;> rw [h] <;> rfl
  rw [entered]
  have only := State.queueStatus_only ({ u with part := .faulted, resume := some s.part } : State)
  have kept := State.queueStatus_rest ({ u with part := .faulted, resume := some s.part } : State)
  generalize State.queueStatus _ = t at only kept ⊢
  have queue : u.writeQueue = s.writeQueue := (congrArg State.writeQueue rest :)
  have back : { t with
      part := s.part, resume := s.resume, notices := s.notices, faultAddr := s.faultAddr, faultKind := s.faultKind,
      faultSource := s.faultSource, multiple := s.multiple, messages := s.messages, writeQueue := s.writeQueue,
      spacing := s.spacing } = s := by
    have k := congrArg (fun x : State => { x with
      part := s.part, resume := s.resume, notices := s.notices, faultAddr := s.faultAddr, faultKind := s.faultKind,
      faultSource := s.faultSource, multiple := s.multiple, messages := s.messages, writeQueue := s.writeQueue,
      spacing := s.spacing }) kept
    have r := congrArg (fun x : State => { x with
      part := s.part, resume := s.resume, writeQueue := s.writeQueue, spacing := s.spacing }) rest
    exact k.trans r
  refine ⟨(congrArg State.part kept :), (congrArg State.resume kept :), fun hn => ?_, fun hn => ?_, queue ▸ only.queue, back⟩
  · have captured : u = { s with
        faultAddr := BitVec.ofNat 64 addr, faultKind := kind, faultSource := source, multiple := false }.notify
        Notice.busFault := by
      rw [hu]
      unfold State.captureFault
      rw [if_pos hn]
    rw [captured] at kept
    exact ⟨(congrArg State.faultAddr kept :), (congrArg State.faultKind kept :), (congrArg State.faultSource kept :),
      (congrArg State.multiple kept :), (congrArg State.notices kept :)⟩
  · have again : u = { s with multiple := true } := by
      rw [hu]
      unfold State.captureFault
      rw [if_neg hn]
    rw [again] at kept
    exact ⟨(congrArg State.multiple kept :), (congrArg State.notices kept :), (congrArg State.faultAddr kept :),
      (congrArg State.faultKind kept :), (congrArg State.faultSource kept :)⟩

/-! ## A step of some links in turn -/

/-- `t` is `s` after a step of each link of a list. -/
structure OnLinks (ls : List LinkId) (f : Env → Link → Link) (s t : State) : Prop where
  links : ∀ l ∈ ls, t.link l = f (s.env l) (s.link l)
  others : ∀ l, l ∉ ls → t.link l = s.link l
  rest : { t with links := s.links, dirty := s.dirty, writeQueue := s.writeQueue, statusDue := s.statusDue,
                  spacing := s.spacing } = s
  queueKept : s.writeQueue <+: t.writeQueue
  dirtyKept : s.dirty <+: t.dirty
  marked : s.part ≠ .idle → ∀ l, (t.link l).record ≠ (s.link l).record → l ∈ t.dirty

theorem State.foldl_onLink (f : Env → Link → Link) (ls : List LinkId) (distinct : ls.Nodup) : ∀ s : State,
    OnLinks ls f s (ls.foldl (fun s l => s.onLink l f) s) := by
  induction ls with
  | nil => exact fun s => ⟨nofun, fun _ _ => rfl, rfl, List.prefix_refl _, List.prefix_refl _, fun _ _ h => absurd rfl h⟩
  | cons k ls ih =>
    intro s
    obtain ⟨notin, distinct⟩ := List.nodup_cons.1 distinct
    have only := s.onLink_only k f
    obtain ⟨links, others, rest, queueKept, dirtyKept, marked⟩ := ih distinct (s.onLink k f)
    rw [List.foldl_cons]
    refine ⟨fun l hl => ?_, fun l hl => ?_, ?_, only.queueKept.trans queueKept, only.dirtyKept.trans dirtyKept, ?_⟩
    · rcases List.mem_cons.1 hl with rfl | hl
      · rw [others l notin, State.link_onLink]
      · have ne : l ≠ k := fun e => notin (e ▸ hl)
        rw [links l hl, only.env, only.others l ne]
    · rw [List.mem_cons, not_or] at hl
      rw [others l hl.2, only.others l hl.1]
    · exact (congrArg (fun x : State => { x with
        links := s.links, dirty := s.dirty, writeQueue := s.writeQueue, statusDue := s.statusDue,
        spacing := s.spacing }) rest :).trans only.rest
    · intro hp l hne
      by_cases e : (State.link (ls.foldl (fun s l => s.onLink l f) (s.onLink k f)) l).record = ((s.onLink k f).link l).record
      · by_cases hk : l = k
        · subst hk
          exact dirtyKept.subset (only.marked hp fun x => hne (e.trans x))
        · exact absurd (e.trans (by rw [only.others l hk])) hne
      · exact marked (only.partEq ▸ hp) l e

/-! ## The anchor read (R183, R184) -/

/-- A change of own tag restarts a link that converses (R2). -/
theorem Link.ownTagChanges_conversing (e : Env) (lk : Link) (h : lk.record.state.conversing = true) :
    (lk.ownTagChanges e).record.state = .listen ∧ (lk.ownTagChanges e).record.prev = lk.record.state ∧
      (lk.ownTagChanges e).record.retries = 0 ∧ (lk.ownTagChanges e).record.lastReason = .planRestart ∧
      (lk.ownTagChanges e).bye = some ⟨.plan, 2⟩ := by
  unfold Link.ownTagChanges
  rw [if_pos h, Link.move_record, Link.move_bye _ _ _ _ (by decide), LinkRecord.move_retries _ _ _ (by decide),
    LinkRecord.move_lastReason, LinkRecord.move_prev]
  refine ⟨rfl, ?_, rfl, rfl, Link.sendBye_bye lk .plan⟩
  unfold Link.restartMarks
  rw [Link.sendBye_record]

theorem Link.ownTagChanges_quiet (e : Env) (lk : Link) (h : ¬lk.record.state.conversing = true) : lk.ownTagChanges e = lk :=
  if_neg h

/-- The held map of an accepted anchor and its clearing writes, with a change of the status block at most (R141). -/
theorem State.clearLog_only (s : State) (length : Nat) :
    StatusOnly { s with log := List.replicate length none, writeQueue := s.writeQueue ++ s.clearEntries length }
      (s.clearLog length) := by
  unfold State.clearLog State.setLog
  dsimp only
  split
  · exact .refl _
  · exact State.statusChange_only _

/-- An accepted anchor, before the links take a change of own tag (R184). -/
def State.adoptAnchor (s : State) (a : Anchor) : State :=
  { s with anchor := some a, accepted := true, loadResult := .ok, anchorCause := none, anchorRead := .idle,
           loading := some .plan, loadQueue := [.start] }.clearLog a.logLength

theorem State.acceptAnchor_eq (s : State) (a : Anchor) :
    s.acceptAnchor a = if tagsDiffer s.anchor a then (s.adoptAnchor a).changeOwnTags else s.adoptAnchor a := rfl

/-- What acceptance does to the links: those that converse restart where the own tags change, and enter the dirty set
(R2). -/
theorem State.acceptAnchor_only (s : State) (a : Anchor) : OnLinks (if tagsDiffer s.anchor a then allBelow 64 else [])
    (fun e lk => lk.ownTagChanges e) (s.adoptAnchor a) (s.acceptAnchor a) := by
  rw [s.acceptAnchor_eq]
  split
  · exact State.foldl_onLink _ _ (by decide +kernel) _
  · exact State.foldl_onLink (fun e lk => lk.ownTagChanges e) [] List.nodup_nil (s.adoptAnchor a)

/-- Settles O20. -/
theorem anchorReadIsJudged : Obligations.AnchorReadIsJudged := by
  intro s
  have fresh : ∀ data, s.staleAnchorReads = 0 → exec (.anchorReadDone data) s = .next
      (match s.anchorRead, data with
        | .outstanding, none => { s with anchorRead := .faulted }.takeFault s.anchorAddr.toNat .readError .anchorRead
        | .outstanding, some bs =>
          match judgeAnchor bs.toList with
          | .ok a => s.acceptAnchor a
          | .error c => s.badAnchor c
        | .idle, _ | .faulted, _ => s) := fun data h => by
    refine congrArg Host.Outcome.next ?_
    unfold State.anchorReadReturns
    exact if_neg (by omega)
  refine ⟨fun data h => congrArg Host.Outcome.next (if_pos h), fun data h hr => ?_, fun h hr hp => ⟨?_, fun bs c hj => ?_,
    fun bs a hj => ?_⟩⟩
  · rw [fresh data h]
    cases he : s.anchorRead with
    | outstanding => exact absurd he hr
    | idle => rfl
    | faulted => rfl
  · rw [fresh none h, hr]
    have f := State.takeFault_works { s with anchorRead := .faulted } (hp ▸ List.mem_cons_self) s.anchorAddr.toNat .readError
      .anchorRead
    refine ⟨_, rfl, f.part, f.resume.trans (congrArg some hp), (congrArg State.anchorRead f.rest :),
      (congrArg State.loading f.rest :), fun hn => ?_⟩
    have captured := f.captured hn
    rwa [BitVec.ofNat_toNat, BitVec.setWidth_eq] at captured
  · rw [fresh (some bs) h, hr]
    simp only [hj]
    rfl
  · rw [fresh (some bs) h, hr]
    simp only [hj]
    refine ⟨_, rfl, ?_⟩
    have steps := s.acceptAnchor_only a
    have cleared : StatusOnly _ (s.adoptAnchor a) := State.clearLog_only _ _
    have link : ∀ l, (s.adoptAnchor a).link l = s.link l := State.link_congr cleared.links
    generalize s.acceptAnchor a = t at steps ⊢
    generalize s.adoptAnchor a = u at steps cleared link
    have rest := (congrArg (fun x : State => { x with
      writeQueue := s.writeQueue ++ ({ s with anchor := some a } : State).clearEntries a.logLength,
      statusDue := s.statusDue, spacing := s.spacing }) steps.rest :).trans cleared.rest
    have part : t.part = s.part := (congrArg State.part rest :)
    refine ⟨part.trans hp, (congrArg State.anchor rest :), (congrArg State.accepted rest :), (congrArg State.loadResult rest :),
      (congrArg State.anchorCause rest :), (congrArg State.anchorRead rest :), (congrArg State.loading rest :),
      (congrArg State.loadQueue rest :), (congrArg State.log rest :), cleared.queueKept.trans steps.queueKept,
      (congrArg State.rows rest :), (congrArg State.hostMem rest :), (congrArg State.contexts rest :), fun l => ?_⟩
    by_cases differ : tagsDiffer s.anchor a = true
    · rw [if_pos differ] at steps
      have new := steps.links l (mem_allBelow l)
      rw [link] at new
      by_cases talks : (s.link l).record.state.conversing = true
      · rw [if_pos ⟨differ, talks⟩]
        obtain ⟨state, prev, retries, reason, bye⟩ := Link.ownTagChanges_conversing (u.env l) _ talks
        rw [← new] at state prev retries reason bye
        refine ⟨state, prev, retries, reason, bye, steps.marked ?_ l fun e => ?_⟩
        · rw [(congrArg State.part cleared.rest :), hp]
          exact nofun
        · rw [link] at e
          rw [← e, state] at talks
          exact Bool.noConfusion talks
      · rw [if_neg fun x => talks x.2, new, Link.ownTagChanges_quiet _ _ talks]
    · rw [if_neg differ] at steps
      rw [if_neg fun x => differ x.1, steps.others l List.not_mem_nil, link]

end Sys2Proof.Machine
end


section
/-! PROOFS. What host data can be once it has been read: anchor blocks, plan rows, and the reads of a load. -/

namespace Sys2Proof.Machine

-- One declaration at a time: the threads of a parallel elaboration exceed the memory of the check.
set_option Elab.async false

/-! ## Fields of bytes (R195) -/

theorem leVal_lt (bs : List Byte) : leVal bs < 256 ^ bs.length := by
  induction bs with
  | nil => exact Nat.one_pos
  | cons b bs ih =>
    have hb := b.isLt
    rw [List.length_cons, Nat.pow_succ]
    unfold leVal
    omega

/-- A field of `k` bytes is below 256 to the `k`. -/
theorem field_lt (bs : List Byte) (off k : Nat) : field bs off k < 256 ^ k :=
  (leVal_lt _).trans_le (Nat.pow_le_pow_right (by decide) (List.length_take_le _ _))

theorem field_one_le (bs : List Byte) (off : Nat) : field bs off 1 ≤ 255 := Nat.le_of_lt_succ (field_lt bs off 1)

theorem field_two_le (bs : List Byte) (off : Nat) : field bs off 2 ≤ 65535 := Nat.le_of_lt_succ (field_lt bs off 2)

/-- A field of one byte is that byte. -/
theorem field_byte {n : Nat} (bs : Vector Byte n) (i : Nat) (h : i < n) : field bs.toList i 1 = bs[i].toNat := by
  have len : i < bs.toList.length := by rw [Vector.length_toList]; exact h
  unfold field
  rw [List.drop_eq_getElem_cons len, List.take_succ_cons, List.take_zero]
  unfold leVal leVal
  rw [Vector.getElem_toList]
  omega

/-! ## Accepted anchor blocks (R127, R183) -/

/-- What the checks of R183 leave: the block with its clamps, whose checks have all passed. -/
theorem judgeAnchor_ok {bs : List Byte} {a : Anchor} (h : judgeAnchor bs = .ok a) :
    a = anchorAt bs ∧ a.chassis ≠ 0 ∧ a.winLow.toNat < a.winHigh.toNat ∧ field bs 56 1 ≠ 0 ∧
      ∀ r ∈ a.regions, a.regionOk r = true := by
  unfold judgeAnchor at h
  dsimp only at h
  split at h
  · exact absurd h nofun
  split at h
  · exact absurd h nofun
  split at h
  · exact absurd h nofun
  split at h
  · exact absurd h nofun
  split at h
  · next chassis _ window count regions =>
    obtain rfl := Except.ok.inj h
    exact ⟨rfl, chassis, Nat.lt_of_not_le window, count, List.all_eq_true.1 regions⟩
  · exact absurd h nofun

/-- A class entry is clamped (R127). -/
theorem classEntryAt_clamped (bs : List Byte) (off : Nat) :
    (classEntryAt bs off).pass ≤ 480 ∧ (classEntryAt bs off).marginal ≤ (classEntryAt bs off).pass ∧
      1 ≤ (classEntryAt bs off).units ∧ (classEntryAt bs off).units ≤ 16384 ∧ (classEntryAt bs off).skewLimit ≤ 255 ∧
      1 ≤ (classEntryAt bs off).burst ∧ (classEntryAt bs off).burst ≤ 65535 :=
  ⟨Nat.min_le_right _ _, Nat.min_le_right _ _, Nat.le_min.2 ⟨Nat.le_max_right _ _, by decide⟩, Nat.min_le_right _ _,
    field_one_le _ _, Nat.le_max_right _ _, Nat.max_le.2 ⟨field_two_le _ _, by decide⟩⟩

/-! ## VALID rows (R19, R21, R22) -/

/-- What the checks of R21 leave of a row that is VALID. -/
theorem rowValue_valid {bs : List Byte} {r : PlanRow} (h : rowValue bs = .valid r) : ∃ sp,
    r = ⟨boolAt bs 1, sp, legPlanAt bs 0, if sp = .half then some (legPlanAt bs 1) else none⟩ ∧
      ∀ leg ∈ legsInUse sp, legTagBad bs leg = false := by
  unfold rowValue at h
  split at h
  · exact absurd h nofun
  dsimp only at h
  split at h
  · exact absurd h nofun
  split at h
  · exact absurd h nofun
  split at h
  · exact absurd h nofun
  · next sp _ _ _ tags =>
    exact ⟨sp, (RowState.valid.inj h).symm, fun leg hl => Bool.eq_false_iff.2 fun e => tags (List.any_eq_true.2 ⟨leg, hl, e⟩)⟩

/-- The kept fields of a leg whose tag passes its check are clamped (R22). -/
theorem legPlanAt_clamped {bs : List Byte} {leg : Fin 2} (h : legTagBad bs leg = false) :
    (legPlanAt bs leg).retryLimit ≤ 7 ∧ (legPlanAt bs leg).priority ≤ 7 ∧
      (∀ x ∈ (legPlanAt bs leg).length, x.1 ≤ 4095 ∧ x.2 ≤ 4095) ∧
      ((legPlanAt bs leg).tag.isSome ↔ (legPlanAt bs leg).kind = .specific) ∧
      ∀ t ∈ (legPlanAt bs leg).tag, t.named = true := by
  unfold legPlanAt
  dsimp only
  refine ⟨Nat.min_le_right _ _, Nat.min_le_right _ _, fun x hx => ?_, ?_, fun t ht => ?_⟩
  · split at hx
    · obtain rfl := Option.some.inj hx
      exact ⟨Nat.min_le_right _ _, Nat.min_le_right _ _⟩
    · exact absurd hx nofun
  · split <;> simp_all
  · split at ht
    · next hk =>
      obtain rfl := Option.some.inj ht
      have specific : expectKindOf (field bs (legOffset leg) 1) = some .specific := by
        cases e : expectKindOf (field bs (legOffset leg) 1) with
        | none => rw [e] at hk; exact absurd hk nofun
        | some k => rw [e] at hk; exact congrArg some hk
      unfold legTagBad at h
      rw [specific] at h
      simpa using h
    · exact absurd ht nofun

/-- Settles O21. -/
theorem hostDataIsClamped : Obligations.HostDataIsClamped := by
  refine ⟨fun bs a h => ?_, fun bs r h => ?_⟩
  · obtain ⟨rfl, chassis, window, count, regions⟩ := judgeAnchor_ok h
    refine ⟨chassis, window, Nat.le_min.2 ⟨Nat.pos_of_ne_zero count, by decide⟩, Nat.min_le_right _ _,
      Nat.le_min.2 ⟨Nat.le_max_right _ _, by decide⟩, Nat.min_le_right _ _, Nat.le_min.2 ⟨Nat.le_max_right _ _, by decide⟩,
      Nat.min_le_right _ _, field_one_le _ _, fun r hr => of_decide_eq_true (regions r hr), fun i => ?_⟩
    have entry : (anchorAt bs).classes[i] = classEntryAt bs (64 + 12 * i.val) := Bank.getElem_of 4 _ i.val i.isLt
    rw [entry]
    exact classEntryAt_clamped bs _
  · obtain ⟨sp, rfl, tags⟩ := rowValue_valid h
    refine ⟨?_, fun p hp => ?_⟩
    · cases sp <;> simp
    · rcases hp with rfl | hp
      · exact legPlanAt_clamped (tags 0 (by cases sp <;> decide))
      · cases sp with
        | whole => exact absurd hp nofun
        | half =>
          obtain rfl := Option.some.inj hp
          exact legPlanAt_clamped (tags 1 (by decide))

/-! ## The reads of a load (R20, R21, R25, R26) -/

theorem rowTorn_iff (bs : Vector Byte 64) : rowTorn bs.toList = true ↔ bs[0] ≠ bs[63] := by
  unfold rowTorn
  rw [decide_eq_true_eq, field_byte bs 0 (by decide), field_byte bs 63 (by decide), ne_eq, ne_eq, BitVec.toNat_inj]

/-- A read of the row reached that returns. -/
theorem State.planReadReturns_row {s : State} {ld : Load} {p : PortId} {rest : List PortId} (h : s.stalePlanReads = 0)
    (hl : s.load = some ld) (hr : ld.reading = true) (ht : ld.todo = p :: rest) (bs : Vector Byte 64) :
    s.planReadReturns (some bs) = s.rowData ld p rest bs.toList := by
  unfold State.planReadReturns
  rw [if_neg (by omega), hl]
  simp only [hr, ht]

theorem State.planReadReturns_error {s : State} {ld : Load} {p : PortId} {rest : List PortId} (h : s.stalePlanReads = 0)
    (hl : s.load = some ld) (hr : ld.reading = true) (ht : ld.todo = p :: rest) :
    s.planReadReturns none = s.rowFault ld p := by
  unfold State.planReadReturns
  rw [if_neg (by omega), hl]
  simp only [hr, ht]

/-- The third torn read, and a whole one, give the row its value (R20, R21). -/
theorem State.rowData_value (s : State) {ld : Load} (p : PortId) (rest : List PortId) {bs : Vector Byte 64}
    (h : bs[0] = bs[63] ∨ 2 ≤ ld.tries) : s.rowData ld p rest bs.toList =
      s.rowRead ld p rest (if bs[0] ≠ bs[63] then .invalid .torn else rowValue bs.toList) := by
  unfold State.rowData
  by_cases torn : bs[0] ≠ bs[63]
  · rw [if_pos ((rowTorn_iff bs).2 torn), if_neg (by have := h.resolve_left torn; omega), if_pos torn]
  · rw [if_neg (fun e => torn ((rowTorn_iff bs).1 e)), if_neg torn]

/-- Settles O22. -/
theorem loadsReadTheirRows : Obligations.LoadsReadTheirRows := by
  refine ⟨fun s => ⟨fun h => congrArg Host.Outcome.next ?_, fun req rest hl hq hf hi => ?_⟩, fun s data => ⟨fun h => ?_,
    fun h hl => ?_, fun ld p rest bs h hl hr ht hd => ⟨fun torn tries => ?_, fun q more hq hv => ?_⟩⟩,
    fun s ld p rest h hl hr ht hp => ?_⟩
  · unfold State.beginLoad
    split
    · next hl hq =>
      rcases h with h | h | h | h
      · exact absurd hl h
      · exact absurd (hq.symm.trans h) nofun
      · exact if_pos (.inl h)
      · exact if_pos (.inr h)
    · rfl
  · refine ⟨s.loadBase req, congrArg Host.Outcome.next ?_, ?_, ?_, ?_⟩
    · unfold State.beginLoad
      rw [hl, hq]
      exact if_neg (not_or.2 ⟨hf, hi⟩)
    · rintro a rfl ha
      unfold State.loadBase
      rw [ha]
      rfl
    · rintro ref b rfl
      rfl
    · rintro ref sc b rfl hb
      unfold State.loadBase
      rw [hb]
      rfl
  · exact congrArg Host.Outcome.next (if_pos h)
  · refine congrArg Host.Outcome.next ?_
    unfold State.planReadReturns
    rw [if_neg (by omega), hl]
  · subst hd
    refine congrArg Host.Outcome.next ((State.planReadReturns_row h hl hr ht bs).trans ?_)
    unfold State.rowData
    rw [if_pos ((rowTorn_iff bs).2 torn), if_pos (by omega)]
    rfl
  · subst hd hq
    exact congrArg Host.Outcome.next ((State.planReadReturns_row h hl hr ht bs).trans (s.rowData_value p _ hv))
  · have fault := State.planReadReturns_error h hl hr ht
    have left : ∃ queue reports, s.loadFaulted ld = { s with load := none, loadQueue := queue, loadReports := reports } ∧
        (ld.req = .start → queue = .start :: s.loadQueue ∧ reports = s.loadReports) ∧
        (∀ ref base, ld.req = .adopt ref base → queue = s.loadQueue ∧
          reports = s.loadReports ++ [⟨ref, false, none, 0, 0⟩]) ∧
        (∀ ref sc, ld.req = .refresh ref sc → queue = s.loadQueue ∧
          reports = s.loadReports ++ [⟨ref, false, some sc, 0, 0⟩]) := by
      unfold State.loadFaulted
      cases ld.req with
      | start => exact ⟨_, _, rfl, fun _ => ⟨rfl, rfl⟩, nofun, nofun⟩
      | adopt ref base =>
        refine ⟨_, _, rfl, nofun, fun r b e => ?_, nofun⟩
        obtain ⟨rfl, rfl⟩ := LoadReq.adopt.inj e
        exact ⟨rfl, rfl⟩
      | refresh ref sc =>
        refine ⟨_, _, rfl, nofun, nofun, fun r b e => ?_⟩
        obtain ⟨rfl, rfl⟩ := LoadReq.refresh.inj e
        exact ⟨rfl, rfl⟩
    obtain ⟨queue, reports, e, start, adopt, refresh⟩ := left
    have f := State.takeFault_works { s with load := none, loadQueue := queue, loadReports := reports } hp
      (ld.base.toNat + 64 * p.val) .readError .planRead
    have exec : exec (.planRowReadDone none) s = .next
        (({ s with load := none, loadQueue := queue, loadReports := reports } : State).takeFault
          (ld.base.toNat + 64 * p.val) .readError .planRead) := by
      refine congrArg Host.Outcome.next (fault.trans ?_)
      unfold State.rowFault
      rw [e]
    have q := (congrArg State.loadQueue f.rest :)
    have r := (congrArg State.loadReports f.rest :)
    refine ⟨_, exec, f.part, f.resume, (congrArg State.load f.rest :), (congrArg State.rows f.rest :),
      (congrArg State.links f.rest :), (congrArg State.planBase f.rest :), f.captured, fun hs => ?_, fun ref base ha => ?_,
      fun ref sc ha => ?_⟩
    · exact ⟨q.trans (start hs).1, r.trans (start hs).2⟩
    · exact ⟨q.trans (adopt ref base ha).1, r.trans (adopt ref base ha).2⟩
    · exact ⟨q.trans (refresh ref sc ha).1, r.trans (refresh ref sc ha).2⟩

end Sys2Proof.Machine
end


section
/-! PROOFS. The apply stage of a load: every row of the scope takes its value at once, and each changed row goes to its
links as one event. -/

namespace Sys2Proof.Machine

-- One declaration at a time: the threads of a parallel elaboration exceed the memory of the check.
set_option Elab.async false

/-! ## Events to some links (R162) -/

/-- Each link of a list without repeats has the event as its youngest, and nothing else changes. -/
theorem State.sendAll_links (ev : SeqEvent) (ls : List LinkId) (distinct : ls.Nodup) : ∀ s : State,
    (∀ l ∈ ls, (s.sendAll ls ev).link l = { s.link l with inbox := (s.link l).inbox ++ [ev] }) ∧
      (∀ l, l ∉ ls → (s.sendAll ls ev).link l = s.link l) ∧ { s.sendAll ls ev with links := s.links } = s := by
  induction ls with
  | nil => exact fun s => ⟨nofun, fun _ _ => rfl, rfl⟩
  | cons k ls ih =>
    intro s
    obtain ⟨notin, distinct⟩ := List.nodup_cons.1 distinct
    obtain ⟨links, others, rest⟩ := ih distinct (s.send k ev)
    have step : s.sendAll (k :: ls) ev = (s.send k ev).sendAll ls ev := rfl
    rw [step]
    refine ⟨fun l hl => ?_, fun l hl => ?_, (congrArg (fun x : State => { x with links := s.links }) rest :)⟩
    · rcases List.mem_cons.1 hl with rfl | hl
      · rw [others l notin, State.link_send]
      · rw [links l hl, State.link_send_other _ _ (ne_of_mem_of_not_mem hl notin)]
    · rw [List.mem_cons, not_or] at hl
      rw [others l hl.2, State.link_send_other _ _ hl.1]

/-! ## Steps that leave the states of the links -/

/-- A step that keeps the state of its link touches the links and the dirty set alone (R14). -/
theorem State.onLink_sameState (s : State) (l : LinkId) (f : Env → Link → Link)
    (h : (f (s.env l) (s.link l)).record.state = (s.link l).record.state) :
    { s.onLink l f with links := s.links, dirty := s.dirty } = s := by
  unfold State.onLink
  dsimp only
  rw [if_pos h]
  split
  · rfl
  · exact (congrArg (fun x : State => { x with links := s.links }) (State.markDirty_rest (s.putLink l _) l) :)

theorem State.foldl_onLink_sameState {f : Env → Link → Link} (h : ∀ e lk, (f e lk).record.state = lk.record.state)
    (ls : List LinkId) : ∀ s : State,
    { ls.foldl (fun s l => s.onLink l f) s with links := s.links, dirty := s.dirty } = s := by
  induction ls with
  | nil => exact fun s => rfl
  | cons k ls ih =>
    intro s
    rw [List.foldl_cons]
    exact (congrArg (fun x : State => { x with links := s.links, dirty := s.dirty }) (ih (s.onLink k f)) :).trans
      (s.onLink_sameState k f (h _ _))

/-! ## Observations cleared (R93, R95) -/

theorem Link.clearObs_state (lk : Link) : lk.clearObs.record.state = lk.record.state := by
  unfold Link.clearObs
  dsimp only
  split <;> rfl

theorem Link.clearObs_obs (lk : Link) : lk.clearObs.obs = Bank.fill 8 none := by
  unfold Link.clearObs
  dsimp only
  split <;> rfl

theorem Link.clearObs_inbox (lk : Link) : lk.clearObs.inbox = lk.inbox := by
  unfold Link.clearObs
  dsimp only
  split <;> rfl

theorem Link.clearObs_elsewhere {lk : Link} (h : lk.record.state ≠ .pairing) : lk.clearObs.record = lk.record := by
  unfold Link.clearObs
  dsimp only
  rw [if_neg h]

/-- In PAIRING the lane map and the pilot lane become absent with the observations (R95). -/
theorem Link.clearObs_pairing {lk : Link} (h : lk.record.state = .pairing) (width : lk.record.laneMap.length ≤ 8) :
    lk.clearObs.record = { lk.record with laneMap := lk.record.laneMap.map fun _ => none, pilot := none } := by
  have absent : ∀ i : Fin 8, (Bank.fill 8 (none : Option Obs))[i] = none := fun i => Bank.getElem_fill 8 none i.val i.isLt
  have nothing : ∀ n, presentObs (Bank.fill 8 none) n = [] := fun n => by
    unfold presentObs
    rw [List.filterMap_eq_nil_iff]
    intro i _
    rw [absent]
    split <;> rfl
  have map : ((allBelow 8).take lk.record.laneMap.length).map
      (fun i => ((Bank.fill 8 (none : Option Obs))[i]).map fun o => (⟨o.far, o.inverted⟩ : LaneEntry)) =
      lk.record.laneMap.map fun _ => none := by
    have flat : ∀ i : Fin 8, ((Bank.fill 8 (none : Option Obs))[i]).map (fun o => (⟨o.far, o.inverted⟩ : LaneEntry)) = none :=
      fun i => by rw [absent]; rfl
    simp only [flat]
    rw [List.map_const', List.map_const', List.length_take]
    congr 1
    exact Nat.min_eq_left width
  unfold Link.clearObs
  dsimp only
  rw [if_pos h]
  unfold Link.followObs
  dsimp only
  rw [map, nothing]
  rfl

/-! ## One changed row (R24, R25) -/

/-- What a link of a port becomes when a row of the port changes: with a change of split its observations are cleared, and
the change waits in its inbox where the scope reaches it. -/
def Link.rowChanged (sc : Scope) (l : LinkId) (d : RowDelta) (lk : Link) : Link :=
  let lk := if d.old.split = d.new.split then lk else lk.clearObs
  if l ∈ sc.links (portOf l) then { lk with inbox := lk.inbox ++ [.rowChange d] } else lk

/-- `t` is `s` after the rows of a list have been taken and handed over. -/
structure RowsTaken (sc : Scope) (cs : List (PortId × RowState)) (s t : State) : Prop where
  rows : ∀ r ∈ cs, t.row r.1 = r.2
  otherRows : ∀ p, (∀ r ∈ cs, r.1 ≠ p) → t.row p = s.row p
  links : ∀ r ∈ cs, ∀ l, portOf l = r.1 → t.link l = (s.link l).rowChanged sc l ⟨s.row r.1, r.2⟩
  otherLinks : ∀ l, (∀ r ∈ cs, r.1 ≠ portOf l) → t.link l = s.link l
  dirtyKept : s.dirty <+: t.dirty
  marked : s.part ≠ .idle → ∀ l, (t.link l).record ≠ (s.link l).record → l ∈ t.dirty
  rest : { t with rows := s.rows, links := s.links, dirty := s.dirty } = s

/-- A row takes a value. -/
def State.setRow (s : State) (p : PortId) (v : RowState) : State := { s with rows := s.rows.set p v }

theorem State.row_setRow (s : State) (p : PortId) (v : RowState) : (s.setRow p v).row p = v := by
  simp [State.row, State.setRow]

theorem State.row_setRow_other (s : State) {p q : PortId} (v : RowState) (h : q ≠ p) : (s.setRow p v).row q = s.row q := by
  have h' : p.val ≠ q.val := fun x => h (Fin.ext x.symm)
  simp [State.row, State.setRow, h']

theorem State.applyRow_eq (s : State) (sc : Scope) (r : PortId × RowState) : s.applyRow sc r =
    (if (s.row r.1).split = r.2.split then s.setRow r.1 r.2 else (s.setRow r.1 r.2).clearObs r.1).sendAll (sc.links r.1)
      (.rowChange ⟨s.row r.1, r.2⟩) := rfl

/-- A change of split clears the observations of a port's links, leg 0 before leg 1. -/
theorem State.clearObs_eq (s : State) (p : PortId) :
    s.clearObs p = [linkOf p 0, linkOf p 1].foldl (fun s l => s.onLink l fun _ lk => lk.clearObs) s := by
  unfold State.clearObs
  rw [List.foldl_cons, List.foldl_cons, List.foldl_nil]

theorem Scope.links_nodup (sc : Scope) (p : PortId) : (sc.links p).Nodup := by
  have two : ∀ q : PortId, [linkOf q 0, linkOf q 1].Nodup := by decide
  cases sc with
  | link n => exact List.nodup_singleton n
  | port | pair | all => exact two p

theorem State.applyRow_taken (s : State) (sc : Scope) (r : PortId × RowState) (h : ∀ l ∈ sc.links r.1, portOf l = r.1) :
    RowsTaken sc [r] s (s.applyRow sc r) := by
  obtain ⟨u, hu⟩ : ∃ u, u = s.setRow r.1 r.2 := ⟨_, rfl⟩
  obtain ⟨v, hv⟩ : ∃ v, v = if (s.row r.1).split = r.2.split then u else u.clearObs r.1 := ⟨_, rfl⟩
  have eq : s.applyRow sc r = v.sendAll (sc.links r.1) (.rowChange ⟨s.row r.1, r.2⟩) := by rw [hv, hu, s.applyRow_eq]
  have links : ∀ l, u.link l = s.link l := fun l => by rw [hu]; rfl
  have cleared : OnLinks (if (s.row r.1).split = r.2.split then [] else [linkOf r.1 0, linkOf r.1 1])
      (fun _ lk => lk.clearObs) u v := by
    have two : [linkOf r.1 0, linkOf r.1 1].Nodup := Scope.links_nodup .all r.1
    rw [hv]
    split
    · exact State.foldl_onLink _ [] List.nodup_nil u
    · rw [State.clearObs_eq]
      exact State.foldl_onLink _ _ two u
  have quiet : { v with links := u.links, dirty := u.dirty } = u := by
    rw [hv]
    split
    · rfl
    · rw [State.clearObs_eq]
      exact State.foldl_onLink_sameState (fun _ lk => lk.clearObs_state) [linkOf r.1 0, linkOf r.1 1] u
  obtain ⟨sent, unsent, same⟩ := State.sendAll_links (.rowChange ⟨s.row r.1, r.2⟩) _ (sc.links_nodup r.1) v
  have before : ∀ l, portOf l = r.1 →
      v.link l = if (s.row r.1).split = r.2.split then s.link l else (s.link l).clearObs := by
    intro l hl
    by_cases hs : (s.row r.1).split = r.2.split
    · rw [if_pos hs] at cleared ⊢
      rw [cleared.others l List.not_mem_nil, links]
    · rw [if_neg hs] at cleared ⊢
      rw [cleared.links l (by rcases eq_linkOf hl.symm with e | e <;> rw [e] <;> simp), links]
  have away : ∀ l, portOf l ≠ r.1 → v.link l = s.link l := by
    intro l hl
    refine (cleared.others l fun e => ?_).trans (links l)
    split at e
    · exact List.not_mem_nil e
    · rcases List.mem_cons.1 e with rfl | e
      · exact hl (portOf_linkOf _ _)
      · exact hl (List.mem_singleton.1 e ▸ portOf_linkOf _ _)
  have uRow : u.row r.1 = r.2 := by rw [hu]; exact s.row_setRow r.1 r.2
  have rowsEq : ∀ p, (s.applyRow sc r).row p = u.row p := fun p => by
    have e : (s.applyRow sc r).rows = u.rows := by
      rw [eq]
      exact ((congrArg State.rows same :) : _ = v.rows).trans ((congrArg State.rows quiet :))
    unfold State.row
    rw [e]
  have records : ∀ l, ((s.applyRow sc r).link l).record = (v.link l).record := fun l => by
    rw [eq]
    by_cases hl : l ∈ sc.links r.1
    · rw [sent l hl]
    · rw [unsent l hl]
  have dirty : (s.applyRow sc r).dirty = v.dirty := by
    rw [eq]
    exact (congrArg State.dirty same :)
  have udirty : u.dirty = s.dirty := by rw [hu]; rfl
  constructor
  case rows =>
    intro x hx
    obtain rfl := List.mem_singleton.1 hx
    rw [rowsEq, uRow]
  case otherRows =>
    intro p hp
    rw [rowsEq, hu]
    exact s.row_setRow_other r.2 fun e => hp r (List.mem_singleton.2 rfl) e.symm
  case links =>
    intro x hx l hl
    obtain rfl := List.mem_singleton.1 hx
    unfold Link.rowChanged
    dsimp only
    rw [hl, ← before l hl, eq]
    by_cases hm : l ∈ sc.links x.1
    · rw [if_pos hm, sent l hm]
    · rw [if_neg hm, unsent l hm]
  case otherLinks =>
    intro l hl
    have ne : portOf l ≠ r.1 := fun e => hl r (List.mem_singleton.2 rfl) e.symm
    rw [eq, unsent l fun e => ne (h l e), away l ne]
  case dirtyKept => rw [dirty, ← udirty]; exact cleared.dirtyKept
  case marked =>
    intro hp l hne
    rw [dirty]
    refine cleared.marked (by rw [hu]; exact hp) l fun e => hne ?_
    rw [records, e, links]
  case rest =>
    rw [eq]
    have k1 := (congrArg (fun x : State => { x with rows := s.rows, links := s.links, dirty := s.dirty }) same :)
    have k2 := (congrArg (fun x : State => { x with rows := s.rows, links := s.links, dirty := s.dirty }) quiet :)
    refine k1.trans (k2.trans ?_)
    rw [hu]
    rfl

theorem RowsTaken.none (sc : Scope) (s : State) : RowsTaken sc [] s s where
  rows _ h := absurd h List.not_mem_nil
  otherRows _ _ := rfl
  links _ h := absurd h List.not_mem_nil
  otherLinks _ _ := rfl
  dirtyKept := List.prefix_refl _
  marked _ _ h := absurd rfl h
  rest := rfl

theorem State.foldl_applyRow (sc : Scope) (cs : List (PortId × RowState)) (distinct : (cs.map (·.1)).Nodup) :
    (∀ r ∈ cs, ∀ l ∈ sc.links r.1, portOf l = r.1) → ∀ s : State,
    RowsTaken sc cs s (cs.foldl (fun s r => s.applyRow sc r) s) := by
  induction cs with
  | nil => exact fun _ s => .none sc s
  | cons c cs ih =>
    intro reach s
    rw [List.map_cons, List.nodup_cons] at distinct
    obtain ⟨notin, distinct⟩ := distinct
    have ne : ∀ r ∈ cs, r.1 ≠ c.1 := fun r hr e => notin (e ▸ List.mem_map_of_mem hr)
    have one := s.applyRow_taken sc c (reach c List.mem_cons_self)
    have more := ih distinct (fun r hr => reach r (List.mem_cons_of_mem _ hr)) (s.applyRow sc c)
    have kept : ∀ r ∈ cs, (s.applyRow sc c).row r.1 = s.row r.1 := fun r hr =>
      one.otherRows r.1 fun x hx => List.mem_singleton.1 hx ▸ (ne r hr).symm
    rw [List.foldl_cons]
    constructor
    case rows =>
      intro r hr
      rcases List.mem_cons.1 hr with rfl | hr
      · rw [more.otherRows r.1 ne]
        exact one.rows r (List.mem_singleton.2 rfl)
      · exact more.rows r hr
    case otherRows =>
      intro p hp
      rw [more.otherRows p fun r hr => hp r (List.mem_cons_of_mem _ hr)]
      exact one.otherRows p fun r hr => List.mem_singleton.1 hr ▸ hp c List.mem_cons_self
    case links =>
      intro r hr l hl
      rcases List.mem_cons.1 hr with rfl | hr
      · rw [more.otherLinks l fun x hx e => ne x hx (e.trans hl)]
        exact one.links r (List.mem_singleton.2 rfl) l hl
      · rw [more.links r hr l hl, kept r hr, one.otherLinks l fun x hx => List.mem_singleton.1 hx ▸ fun e =>
          ne r hr (hl.symm.trans e.symm)]
    case otherLinks =>
      intro l hl
      rw [more.otherLinks l fun r hr => hl r (List.mem_cons_of_mem _ hr)]
      exact one.otherLinks l fun r hr => List.mem_singleton.1 hr ▸ hl c List.mem_cons_self
    case dirtyKept => exact one.dirtyKept.trans more.dirtyKept
    case marked =>
      intro hp l hne
      by_cases e : (State.link (cs.foldl (fun s r => s.applyRow sc r) (s.applyRow sc c)) l).record =
          ((s.applyRow sc c).link l).record
      · exact more.dirtyKept.subset (one.marked hp l fun x => hne (e.trans x))
      · have part : (s.applyRow sc c).part = s.part := (congrArg State.part one.rest :)
        exact more.marked (part ▸ hp) l e
    case rest =>
      exact (congrArg (fun x : State => { x with rows := s.rows, links := s.links, dirty := s.dirty }) more.rest :).trans
        one.rest

/-! ## The rows that a load leaves (R34, R35) -/

theorem Scope.rows_nodup (sc : Scope) : sc.rows.Nodup := by
  have pair : ∀ e : EngineId, (Scope.rows (.pair e)).Nodup := by decide
  have all : (allBelow 32).Nodup := by decide +kernel
  cases sc with
  | link n => exact List.nodup_singleton _
  | port p => exact List.nodup_singleton _
  | pair e => exact pair e
  | all => exact all

/-- The rows that a load applies are of distinct ports, and go to links of their ports. -/
theorem State.newRows_reach {s : State} {sc sc' : Scope} {aside rows : List (PortId × RowState)}
    (h : aside.map (·.1) = sc.rows) (e : s.newRows sc aside = (sc', rows)) :
    (rows.map (·.1)).Nodup ∧ ∀ r ∈ rows, ∀ l ∈ sc'.links r.1, portOf l = r.1 := by
  have both : ∀ p : PortId, ∀ l ∈ [linkOf p 0, linkOf p 1], portOf l = p := by decide
  have whole : ∀ x : Scope, (∀ n, x ≠ .link n) → (x, aside) = (sc', rows) → (aside.map (·.1)).Nodup →
      (rows.map (·.1)).Nodup ∧ ∀ r ∈ rows, ∀ l ∈ sc'.links r.1, portOf l = r.1 := by
    intro x hx e hn
    obtain ⟨rfl, rfl⟩ := Prod.mk.inj e
    refine ⟨hn, fun r _ => ?_⟩
    cases x with
    | link n => exact absurd rfl (hx n)
    | port | pair | all => exact both r.1
  have distinct : (aside.map (·.1)).Nodup := h ▸ sc.rows_nodup
  cases sc with
  | link n =>
    cases aside with
    | nil => exact absurd h nofun
    | cons a rest =>
      obtain ⟨p, v⟩ := a
      obtain rfl : p = portOf n := (List.cons.inj h).1
      unfold State.newRows at e
      dsimp only at e
      split at e
      · obtain ⟨rfl, rfl⟩ := Prod.mk.inj e
        exact ⟨List.nodup_singleton _, fun r _ => both r.1⟩
      · obtain ⟨rfl, rfl⟩ := Prod.mk.inj e
        refine ⟨List.nodup_singleton _, fun r hr l hl => ?_⟩
        rw [List.mem_singleton.1 hr, List.mem_singleton.1 hl]
  | port p => exact whole (.port p) nofun e distinct
  | pair q => exact whole (.pair q) nofun e distinct
  | all => exact whole .all nofun e distinct

/-- A scope LINK that stays LINK takes the fields of its leg alone (R35). -/
theorem takeLeg_leg {o r : PlanRow} {leg : Fin 2} (ho : o.leg1.isSome ↔ o.split = .half) (hl : leg = 1 → o.split = .half) :
    ∃ w, takeLeg (.valid o) (.valid r) leg = .valid w ∧ w.enable = o.enable ∧ w.split = o.split ∧
      (RowState.valid w).leg leg = (RowState.valid r).leg leg ∧
      (RowState.valid w).leg (1 - leg) = (RowState.valid o).leg (1 - leg) := by
  rcases leg_cases leg with rfl | rfl
  · exact ⟨{ o with leg0 := r.leg0 }, rfl, rfl, rfl, rfl, rfl⟩
  · obtain ⟨p, hp⟩ := Option.isSome_iff_exists.1 (ho.2 (hl rfl))
    refine ⟨{ o with leg1 := r.leg1 }, ?_, rfl, rfl, rfl, rfl⟩
    unfold takeLeg
    simp only [hp]
    rfl

theorem State.newRows_stays (s : State) (n : LinkId) {o r : PlanRow} (ho : s.row (portOf n) = .valid o)
    (he : o.enable = r.enable) (hs : o.split = r.split) : s.newRows (.link n) [(portOf n, .valid r)] =
      (.link n, [(portOf n, takeLeg (.valid o) (.valid r) (legOf n))]) := by
  unfold State.newRows
  dsimp only
  rw [ho, if_neg]
  simp [widens, he, hs]

/-! ## The apply stage (R25, R36, R37) -/

/-- Outside IDLE, LOADING's going on keeps the dirty set. -/
theorem LoadGoesOn.dirtyKept {s t : State} (h : LoadGoesOn s t) (hp : s.part ≠ .idle) : s.dirty ⊆ t.dirty := by
  by_cases hl : s.loading = some .reconciling
  · by_cases hn : ∀ l d, .rowChange d ∉ (s.link l).inbox
    · obtain ⟨added, e, _⟩ := h.dirty hl hn hp
      rw [e]
      exact List.subset_append_left _ _
    · push Not at hn
      rw [h.waits (.inr hn)]
      exact fun _ h => h
  · rw [h.waits (.inl hl)]
    exact fun _ h => h

/-- The rows of a load have been taken: the state from which the load's end is reported. -/
def State.rowsApplied (s : State) (sc : Scope) (rows : List (PortId × RowState)) : State :=
  { (s.changedRows rows).foldl (fun s r => s.applyRow sc r) s with load := none }

theorem State.applyLoad_eq (s : State) (ld : Load) {sc : Scope} {rows : List (PortId × RowState)}
    (h : s.newRows ld.req.scope ld.aside = (sc, rows)) : s.applyLoad ld = (s.rowsApplied sc rows).loadApplied ld sc
      (s.changedRows rows).length (rows.filter fun r => r.2.bad).length := by
  unfold State.applyLoad
  rw [h]
  rfl

/-- A row read, whole or torn a third time, of the last row of a load: the load applies (R20, R25). -/
theorem State.planReadReturns_last {s : State} {ld : Load} {p : PortId} {bs : Vector Byte 64} {v : RowState}
    (h : s.stalePlanReads = 0) (hl : s.load = some ld) (hr : ld.reading = true) (ht : ld.todo = [p])
    (hv : (bs[0] = bs[63] ∧ v = rowValue bs.toList) ∨ (bs[0] ≠ bs[63] ∧ ld.tries = 2 ∧ v = .invalid .torn)) :
    s.planReadReturns (some bs) = s.applyLoad { ld with todo := [], tries := 0, aside := ld.aside ++ [(p, v)] } := by
  have value : v = if bs[0] ≠ bs[63] then .invalid .torn else rowValue bs.toList := by
    rcases hv with ⟨whole, e⟩ | ⟨torn, _, e⟩
    · rw [e, if_neg (not_not.2 whole)]
    · rw [e, if_pos torn]
  rw [State.planReadReturns_row h hl hr ht bs, s.rowData_value p [] (hv.imp And.left fun x => by omega), ← value]
  rfl

end Sys2Proof.Machine
end


section
/-! PROOFS. The last row of a load: what holds of rows, links and reports after the apply stage. -/

namespace Sys2Proof.Machine

-- One declaration at a time: the threads of a parallel elaboration exceed the memory of the check.
set_option Elab.async false

/-- A link whose row changed, beside its inbox (R24, R93, R95). -/
theorem Link.rowChanged_cases (sc : Scope) (l : LinkId) (d : RowDelta) (lk : Link) :
    (lk.rowChanged sc l d).record = (if d.old.split = d.new.split then lk else lk.clearObs).record ∧
      (lk.rowChanged sc l d).obs = (if d.old.split = d.new.split then lk else lk.clearObs).obs ∧
      (l ∈ sc.links (portOf l) → (lk.rowChanged sc l d).inbox = lk.inbox ++ [.rowChange d]) := by
  have inbox : (if d.old.split = d.new.split then lk else lk.clearObs).inbox = lk.inbox := by
    split
    · rfl
    · exact lk.clearObs_inbox
  unfold Link.rowChanged
  dsimp only
  split
  · exact ⟨rfl, rfl, fun _ => congrArg (· ++ _) inbox⟩
  · next h => exact ⟨rfl, rfl, fun x => absurd x h⟩

/-- `t` has the rows of a load as `w` has them, once all its rows have been taken. -/
structure LoadTaken (s t : State) (sc : Scope) (rows : List (PortId × RowState)) : Prop where
  ended : t.load = none
  values : ∀ r ∈ rows, t.row r.1 = r.2
  otherRows : ∀ q, (∀ r ∈ rows, r.1 ≠ q) → t.row q = s.row q
  links : ∀ r ∈ rows, r.2 ≠ s.row r.1 → ∀ l, portOf l = r.1 →
    t.link l = (s.link l).rowChanged sc l ⟨s.row r.1, r.2⟩
  otherLinks : ∀ l, (∀ r ∈ rows, r.1 = portOf l → r.2 = s.row r.1) → t.link l = s.link l
  marked : s.part ≠ .idle → ∀ l, (t.link l).record ≠ (s.link l).record → l ∈ t.dirty

/-- A state with the rows, the links and at least the dirty set of another. -/
theorem LoadTaken.congr {s t u : State} {sc : Scope} {rows : List (PortId × RowState)} (h : LoadTaken s t sc rows)
    (load : u.load = t.load) (hrows : u.rows = t.rows) (links : u.links = t.links)
    (dirty : s.part ≠ .idle → t.dirty ⊆ u.dirty) : LoadTaken s u sc rows := by
  have row : ∀ p, u.row p = t.row p := fun p => by unfold State.row; rw [hrows]
  have link : ∀ l, u.link l = t.link l := State.link_congr links
  refine ⟨load.trans h.ended, ?_, ?_, ?_, ?_, ?_⟩
  · exact fun r hr => (row _).trans (h.values r hr)
  · exact fun q hq => (row q).trans (h.otherRows q hq)
  · exact fun r hr hne l hl => (link l).trans (h.links r hr hne l hl)
  · exact fun l hl => (link l).trans (h.otherLinks l hl)
  · exact fun hp l hne => dirty hp (h.marked hp l (link l ▸ hne))

/-- The rows of a load are all taken at once (R25). -/
theorem State.rowsApplied_taken (s : State) {sc : Scope} {rows : List (PortId × RowState)}
    (distinct : (rows.map (·.1)).Nodup) (reach : ∀ r ∈ rows, ∀ l ∈ sc.links r.1, portOf l = r.1) :
    LoadTaken s (s.rowsApplied sc rows) sc rows ∧ s.dirty <+: (s.rowsApplied sc rows).dirty ∧
      { s.rowsApplied sc rows with rows := s.rows, links := s.links, dirty := s.dirty, load := s.load } = s := by
  have changed : ∀ r, r ∈ s.changedRows rows ↔ r ∈ rows ∧ r.2 ≠ s.row r.1 := fun r => by
    unfold State.changedRows
    rw [List.mem_filter, Bool.not_eq_true', decide_eq_false_iff_not]
    exact and_congr_right fun _ => ne_comm
  have taken := State.foldl_applyRow sc (s.changedRows rows)
    (distinct.sublist (List.Sublist.map _ List.filter_sublist)) (fun r hr => reach r ((changed r).1 hr).1) s
  have same : ∀ r ∈ rows, ∀ x ∈ rows, r.1 = x.1 → r = x := fun r hr x hx e => List.inj_on_of_nodup_map distinct hr hx e
  unfold State.rowsApplied
  generalize (s.changedRows rows).foldl _ s = t at taken ⊢
  refine ⟨⟨rfl, fun r hr => ?_, fun q hq => ?_, fun r hr hne => ?_, fun l hl => ?_, taken.marked⟩, taken.dirtyKept,
    (congrArg (fun x : State => { x with load := s.load }) taken.rest :)⟩
  · by_cases hne : r.2 = s.row r.1
    · refine (taken.otherRows r.1 fun x hx e => ?_).trans hne.symm
      obtain ⟨hx, h⟩ := (changed x).1 hx
      exact h (same x hx r hr e ▸ hne)
    · exact taken.rows r ((changed r).2 ⟨hr, hne⟩)
  · exact taken.otherRows q fun x hx => hq x ((changed x).1 hx).1
  · exact taken.links r ((changed r).2 ⟨hr, hne⟩)
  · refine taken.otherLinks l fun x hx e => ?_
    obtain ⟨hx, h⟩ := (changed x).1 hx
    exact h (hl x hx e)

/-- A link of a port that keeps its split, or out of PAIRING, keeps its record (R24, R95). -/
theorem LoadTaken.record {s t : State} {sc : Scope} {rows : List (PortId × RowState)} (h : LoadTaken s t sc rows) (l : LinkId)
    (hl : (∀ r ∈ rows, r.1 = portOf l → r.2.split = s.splitOf r.1) ∨ (s.link l).record.state ≠ .pairing) :
    (t.link l).record = (s.link l).record := by
  by_cases hsame : ∀ r ∈ rows, r.1 = portOf l → r.2 = s.row r.1
  · rw [h.otherLinks l hsame]
  · push Not at hsame
    obtain ⟨r, hr, hp, hne⟩ := hsame
    rw [h.links r hr hne l hp.symm, (Link.rowChanged_cases sc l _ _).1]
    split
    · rfl
    · next hs => exact Link.clearObs_elsewhere (hl.resolve_left fun x => hs (x r hr hp).symm)

/-- With a change of split the observations of the port's links are absent (R93). -/
theorem LoadTaken.cleared {s t : State} {sc : Scope} {rows : List (PortId × RowState)} (h : LoadTaken s t sc rows)
    {r : PortId × RowState} (hr : r ∈ rows) (hs : r.2.split ≠ s.splitOf r.1) (l : LinkId) (hl : portOf l = r.1) :
    (t.link l).obs = Bank.fill 8 none ∧ (t.link l).record = (s.link l).clearObs.record := by
  have hne : r.2 ≠ s.row r.1 := fun e => hs (congrArg RowState.split e)
  obtain ⟨record, obs, _⟩ := Link.rowChanged_cases sc l ⟨s.row r.1, r.2⟩ (s.link l)
  have differ : ¬(s.row r.1).split = r.2.split := fun e => hs e.symm
  rw [h.links r hr hne l hl, obs, record, if_neg differ]
  exact ⟨Link.clearObs_obs _, rfl⟩

/-- Settles O23. -/
theorem loadsApplyAllRowsAtOnce : Obligations.LoadsApplyAllRowsAtOnce := by
  refine ⟨fun s ld p bs h hl hr ht hscope v sc rows hv hrows => ?_, fun s n v => ⟨fun o r ho hv he hs hlo _ hleg => ?_,
    fun o r ho hv he hs hw hlo hleg => ?_, fun hw => ?_, fun sc aside hsc => ?_⟩⟩
  · obtain ⟨distinct, reach⟩ := State.newRows_reach (by rw [List.map_append]; exact hscope) hrows
    obtain ⟨taken, dirtyKept, rest⟩ := s.rowsApplied_taken distinct reach
    have exec : exec (.planRowReadDone (some bs)) s = .next ((s.rowsApplied sc rows).loadApplied ld sc
        (s.changedRows rows).length (rows.filter fun r => r.2.bad).length) := by
      refine congrArg Host.Outcome.next ((State.planReadReturns_last h hl hr ht hv).trans ?_)
      exact s.applyLoad_eq { ld with todo := [], tries := 0, aside := ld.aside ++ [(p, v)] } hrows
    rw [exec]
    refine ⟨_, rfl, ?_⟩
    generalize s.rowsApplied sc rows = w at taken dirtyKept rest
    have base : w.planBase = s.planBase := (congrArg State.planBase rest :)
    have reports : w.loadReports = s.loadReports := (congrArg State.loadReports rest :)
    have part : w.part = s.part := (congrArg State.part rest :)
    have facts : ∀ t, LoadTaken s t sc rows → t.load = none ∧ (∀ r ∈ rows, t.row r.1 = r.2) ∧
        (∀ q, (∀ r ∈ rows, r.1 ≠ q) → t.row q = s.row q) ∧
        (∀ r ∈ rows, r.2 ≠ s.row r.1 → ∀ l ∈ sc.links r.1,
          (t.link l).inbox = (s.link l).inbox ++ [.rowChange ⟨s.row r.1, r.2⟩]) ∧
        (∀ r ∈ rows, r.2.split ≠ s.splitOf r.1 → ∀ l, portOf l = r.1 → (t.link l).obs = Bank.fill 8 none) ∧
        (∀ l, (∀ r ∈ rows, r.1 = portOf l → r.2 = s.row r.1) → t.link l = s.link l) ∧
        (∀ l, (∀ r ∈ rows, r.1 = portOf l → r.2.split = s.splitOf r.1) ∨ (s.link l).record.state ≠ .pairing →
          (t.link l).record = (s.link l).record) ∧
        (∀ r ∈ rows, r.2.split ≠ s.splitOf r.1 → ∀ l, portOf l = r.1 → (s.link l).record.state = .pairing →
          (s.link l).record.laneMap.length ≤ 8 →
          (t.link l).record = { (s.link l).record with
            laneMap := (s.link l).record.laneMap.map fun _ => none, pilot := none } ∧
          (s.part ≠ .idle → (t.link l).record ≠ (s.link l).record → l ∈ t.dirty)) := by
      intro t k
      refine ⟨k.ended, k.values, k.otherRows, fun r hr hne l hl => ?_, fun r hr hs l hl => (k.cleared hr hs l hl).1,
        k.otherLinks, k.record, fun r hr hs l hl hst hw => ⟨?_, fun hp => k.marked hp l⟩⟩
      · have port := reach r hr l hl
        rw [k.links r hr hne l port]
        exact (Link.rowChanged_cases sc l _ _).2.2 (port ▸ hl)
      · rw [(k.cleared hr hs l hl).2]
        exact Link.clearObs_pairing hst hw
    unfold State.loadApplied
    cases hreq : ld.req with
    | start =>
      obtain ⟨u, hu⟩ : ∃ u : State, u = { w with planBase := some ld.base, loading := some .reconciling } := ⟨_, rfl⟩
      have goes := u.checkReconciled_goesOn
      have links : u.checkReconciled.links = u.links := (congrArg State.links goes.rest :)
      have plan : u.checkReconciled.planBase = u.planBase := (congrArg State.planBase goes.rest :)
      dsimp only
      rw [← hu]
      obtain ⟨a, b, c, d, e, f, g, i⟩ := facts u.checkReconciled (taken.congr
        ((congrArg State.load goes.rest :).trans (by rw [hu])) ((congrArg State.rows goes.rest :).trans (by rw [hu]))
        (links.trans (by rw [hu])) fun hp => by
          have k := goes.dirtyKept (by rw [hu]; exact part ▸ hp)
          rw [hu] at k ⊢
          exact k)
      refine ⟨a, b, c, d, e, f, g, i, nofun, nofun, fun _ => ⟨plan.trans (by rw [hu]), u, by rw [hu], by rw [hu]; exact part,
        ?_, ?_, by rw [hu]; exact dirtyKept, links.symm, goes⟩⟩
      · rw [hu]; exact (congrArg State.writeQueue rest :)
      · rw [hu]; exact (congrArg State.writing rest :)
    | adopt ref b =>
      obtain ⟨a, b, c, d, e, f, g, i⟩ := facts _ (taken.congr (u := { w with
        planBase := some b,
        loadReports := w.loadReports ++ [⟨ref, true, some sc, (s.changedRows rows).length,
          (rows.filter fun r => r.2.bad).length⟩] }) rfl rfl rfl fun _ _ h => h)
      refine ⟨a, b, c, d, e, f, g, i, nofun, fun r x hx => ?_, nofun⟩
      obtain ⟨rfl, rfl⟩ := LoadReq.adopt.inj hx
      exact ⟨rfl, congrArg (· ++ _) reports⟩
    | refresh ref x =>
      obtain ⟨a, b, c, d, e, f, g, i⟩ := facts _ (taken.congr (u := { w with
        loadReports := w.loadReports ++ [⟨ref, true, some sc, (s.changedRows rows).length,
          (rows.filter fun r => r.2.bad).length⟩] }) rfl rfl rfl fun _ _ h => h)
      refine ⟨a, b, c, d, e, f, g, i, fun r x hx => ?_, nofun, nofun⟩
      obtain ⟨rfl, rfl⟩ := LoadReq.refresh.inj hx
      exact ⟨base, congrArg (· ++ _) reports⟩
  · subst hv
    obtain ⟨w, hw, enable, split, leg, other⟩ := takeLeg_leg (r := r) hlo hleg
    exact ⟨w, by rw [s.newRows_stays n ho he hs, hw], enable, split, leg, by rw [ho]; exact other⟩
  · subst hv
    rw [s.newRows_stays n ho he hs, ho, hleg]
    unfold takeLeg
    simp only [hlo]
    rfl
  · have wide : widens (s.row (portOf n)) v = true := by
      unfold widens
      split
      · exact decide_eq_true (hw _ _ ‹_› rfl)
      · rfl
    exact if_pos wide
  · cases sc with
    | link k => exact absurd rfl (hsc k)
    | port | pair | all => rfl

end Sys2Proof.Machine
end


section
/-! PROOFS. What a stop, a restart, a change of width and a re-verification make of a link. -/

namespace Sys2Proof.Machine

-- One declaration at a time: the threads of a parallel elaboration exceed the memory of the check.
set_option Elab.async false

/-! ## The transition's marks -/

theorem LinkRecord.move_exhausted {r : LinkRecord} (u : Word) (st : LinkState) (h : r.state = .held) :
    (r.move u st).exhausted = false := by
  unfold LinkRecord.move LinkRecord.enter LinkRecord.leave
  rw [h]
  cases st <;> rfl

/-- The lists of a record hold no entry, at a width (R4, R29). -/
def LinkRecord.blank (r : LinkRecord) (n : Nat) : Prop :=
  r.laneMap = List.replicate n none ∧ r.deskew = List.replicate n none ∧ r.laneLmis = List.replicate n none

theorem absentLike_replicate {α β : Type} (n : Nat) :
    (absentLike (List.replicate n (none : Option α)) : List (Option β)) = List.replicate n none :=
  List.map_replicate

/-- A transition leaves the lists absent. -/
theorem LinkRecord.blank.move {r : LinkRecord} {n : Nat} (h : r.blank n) (u : Word) (st : LinkState) :
    (r.move u st).blank n := by
  obtain ⟨map, deskew, lmis⟩ := h
  have leave : r.leave.blank n := by
    unfold LinkRecord.leave
    split <;> exact ⟨map, deskew, lmis⟩
  obtain ⟨map, deskew, lmis⟩ := leave
  have enter : (r.leave.enter u st).blank n := by
    unfold LinkRecord.enter
    cases st
    case listen =>
      refine ⟨?_, ?_, ?_⟩
      · exact (congrArg absentLike map).trans (absentLike_replicate n)
      · exact (congrArg absentLike deskew).trans (absentLike_replicate n)
      · exact (congrArg absentLike lmis).trans (absentLike_replicate n)
    case qualify => exact ⟨map, deskew, (congrArg absentLike lmis).trans (absentLike_replicate n)⟩
    all_goals exact ⟨map, deskew, lmis⟩
  exact enter

/-! ## Stops (R28, R29, R87) -/

theorem Link.stop_off {e : Env} {lk : Link} (h : lk.record.state = .off) (r : ByeReason) : lk.stop e r = lk := if_pos h

theorem Link.stop_moves {e : Env} {lk : Link} (h : lk.record.state ≠ .off) (r : ByeReason) :
    lk.stop e r = (lk.byeIfConversing r).move e .off := if_neg h

theorem Link.stop_state (e : Env) (lk : Link) (r : ByeReason) : (lk.stop e r).record.state = .off := by
  by_cases h : lk.record.state = .off
  · rw [Link.stop_off h, h]
  · rw [Link.stop_moves h, Link.move_record, LinkRecord.move_state]

theorem Link.stop_toLog (e : Env) (lk : Link) (r : ByeReason) : (lk.stop e r).toLog = lk.toLog := by
  by_cases h : lk.record.state = .off
  · rw [Link.stop_off h]
  · rw [Link.stop_moves h, Link.move_toLog, Link.byeIfConversing_toLog]

theorem Link.stop_inbox (e : Env) (lk : Link) (r : ByeReason) : lk.inbox <+: (lk.stop e r).inbox := by
  by_cases h : lk.record.state = .off
  · rw [Link.stop_off h]
  · rw [Link.stop_moves h]
    exact (lk.byeIfConversing_inbox r).trans (Link.move_inbox _ _ _ _)

/-- What a stop keeps of the record. -/
theorem Link.stop_kept (e : Env) (lk : Link) (r : ByeReason) :
    (lk.stop e r).record.lastReason = lk.record.lastReason ∧ (lk.stop e r).record.adminDown = lk.record.adminDown ∧
      (lk.stop e r).record.selfCheck = lk.record.selfCheck ∧ (lk.stop e r).record.farExpect = lk.record.farExpect := by
  by_cases h : lk.record.state = .off
  · rw [Link.stop_off h]
    exact ⟨rfl, rfl, rfl, rfl⟩
  · rw [Link.stop_moves h, Link.move_record, LinkRecord.move_lastReason, LinkRecord.move_adminDown,
      LinkRecord.move_selfCheck, LinkRecord.move_farExpect _ _ _ (by decide), Link.byeIfConversing_record]
    exact ⟨rfl, rfl, rfl, rfl⟩

/-- A stop ends a conversation with BYE (R49). -/
theorem Link.stop_bye (e : Env) {lk : Link} (h : lk.record.state.conversing = true) (r : ByeReason) :
    (lk.stop e r).bye = some ⟨r, 2⟩ := by
  rw [Link.stop_moves (fun x => by rw [x] at h; exact Bool.noConfusion h), Link.move_bye _ _ _ _ (by decide)]
  exact Link.byeIfConversing_bye lk r h

/-! ## Restarts (R27, R65, R89) -/

theorem Link.restart_off {e : Env} {lk : Link} (h : lk.record.state = .off) (usable : e.usable = true)
    (present : e.present = true) (up : lk.record.adminDown = false) (free : lk.record.selfCheck = false) :
    lk.restart e = lk.restartMarks.move e .listen := by
  unfold Link.restart
  simp only [h, usable, present, up, free, Bool.false_eq_true, not_false_eq_true, and_self, if_true, if_false]

theorem Link.restart_held {e : Env} {lk : Link} (h : lk.record.state = .held) (free : lk.record.selfCheck = false) :
    lk.restart e = lk.restartMarks.move e .listen := by
  unfold Link.restart
  simp only [h, free, Bool.false_eq_true, if_false]

theorem Link.restart_listen {e : Env} {lk : Link} (h : lk.record.state = .listen) : lk.restart e = lk.restartMarks := by
  unfold Link.restart
  simp only [h]

theorem Link.restart_running {e : Env} {lk : Link}
    (h : lk.record.state ∈ [LinkState.pairing, .verify, .train, .qualify, .up, .backoff]) :
    lk.restart e = ((lk.byeIfConversing .plan).restartMarks).move e .listen := by
  unfold Link.restart
  simp only [List.mem_cons, List.not_mem_nil, or_false] at h
  rcases h with h | h | h | h | h | h <;> simp only [h]

/-- A restart that moves the link to LISTEN. -/
structure Link.Restarted (old new : Link) : Prop where
  state : new.record.state = .listen
  prev : new.record.prev = old.record.state
  retries : new.record.retries = 0
  reason : new.record.lastReason = .planRestart
  gate : new.gate = false
  log : new.toLog = old.toLog
  exhausted : old.record.state = .held → new.record.exhausted = false

theorem Link.restartMarks_restarted (e : Env) (lk : Link) : lk.Restarted (lk.restartMarks.move e .listen) where
  state := by rw [Link.move_record, LinkRecord.move_state]
  prev := by rw [Link.move_record, LinkRecord.move_prev]; rfl
  retries := by rw [Link.move_record, LinkRecord.move_retries _ _ _ (by decide)]; rfl
  reason := by rw [Link.move_record, LinkRecord.move_lastReason]; rfl
  gate := by rw [Link.move_gate]; rfl
  log := by rw [Link.move_toLog]; rfl
  exhausted h := by rw [Link.move_record]; exact LinkRecord.move_exhausted _ _ h

/-- A restart out of a conversation, or of BACKOFF, goes to LISTEN, with BYE(PLAN) in a conversation (R27, R49). -/
theorem Link.restart_restarted {e : Env} {lk : Link}
    (h : lk.record.state ∈ [LinkState.pairing, .verify, .train, .qualify, .up, .backoff]) :
    lk.Restarted (lk.restart e) ∧ (lk.record.state.conversing = true → (lk.restart e).bye = some ⟨.plan, 2⟩) := by
  have r := (lk.byeIfConversing .plan).restartMarks_restarted e
  rw [Link.restart_running h]
  refine ⟨⟨r.state, ?_, r.retries, r.reason, r.gate, ?_, fun held => absurd h (by rw [held]; decide)⟩, fun talks => ?_⟩
  · rw [r.prev, Link.byeIfConversing_record]
  · rw [r.log, Link.byeIfConversing_toLog]
  · rw [Link.move_bye _ _ _ _ (by decide)]
    exact Link.byeIfConversing_bye lk .plan talks

/-- Where the conditions of R65 hold a restart leaves the link in LISTEN with its marks (R27). -/
theorem Link.restart_listens {e : Env} {lk : Link} (usable : e.usable = true) (present : e.present = true)
    (up : lk.record.adminDown = false) (free : lk.record.selfCheck = false) :
    (lk.restart e).record.state = .listen ∧ (lk.restart e).record.lastReason = .planRestart ∧
      (lk.restart e).record.retries = 0 := by
  have moved := fun h => (Link.restart_restarted (e := e) (lk := lk) h).1
  have marks := lk.restartMarks_restarted e
  cases h : lk.record.state with
  | off =>
    rw [Link.restart_off h usable present up free]
    exact ⟨marks.state, marks.reason, marks.retries⟩
  | held =>
    rw [Link.restart_held h free]
    exact ⟨marks.state, marks.reason, marks.retries⟩
  | listen =>
    rw [Link.restart_listen h]
    exact ⟨h, rfl, rfl⟩
  | pairing | verify | train | qualify | up | backoff =>
    have k := moved (by rw [h]; decide)
    exact ⟨k.state, k.reason, k.retries⟩

/-- A restart, whatever comes of it, keeps the events that wait, adds no discrepancy, and leaves absent lists absent. -/
theorem Link.restart_kept (e : Env) (lk : Link) : lk.inbox <+: (lk.restart e).inbox ∧ (lk.restart e).toLog = lk.toLog ∧
    ∀ n, lk.record.blank n → (lk.restart e).record.blank n := by
  have move : ∀ (x : Link) st, lk.inbox <+: x.inbox → x.toLog = lk.toLog → x.record = lk.restartMarks.record →
      lk.inbox <+: (x.move e st).inbox ∧ (x.move e st).toLog = lk.toLog ∧
        ∀ n, lk.record.blank n → (x.move e st).record.blank n := fun x st hi hl hr =>
    ⟨hi.trans (x.move_inbox e st _), by rw [Link.move_toLog, hl], fun n hb => by
      rw [Link.move_record, hr]
      exact LinkRecord.blank.move (r := lk.restartMarks.record) hb _ _⟩
  have stay : lk.inbox <+: lk.restartMarks.inbox ∧ lk.restartMarks.toLog = lk.toLog ∧
      ∀ n, lk.record.blank n → lk.restartMarks.record.blank n := ⟨List.prefix_refl _, rfl, fun _ h => h⟩
  have bye : ∀ st, lk.inbox <+: (((lk.byeIfConversing .plan).restartMarks).move e st).inbox ∧
      (((lk.byeIfConversing .plan).restartMarks).move e st).toLog = lk.toLog ∧
        ∀ n, lk.record.blank n → (((lk.byeIfConversing .plan).restartMarks).move e st).record.blank n := fun st =>
    move _ st (lk.byeIfConversing_inbox .plan) (Link.byeIfConversing_toLog lk .plan)
      (by unfold Link.restartMarks; rw [Link.byeIfConversing_record])
  unfold Link.restart
  cases lk.record.state with
  | off =>
    dsimp only
    split
    · split
      · exact stay
      · exact move _ _ (List.prefix_refl _) rfl rfl
    · exact ⟨List.prefix_refl _, rfl, fun _ h => h⟩
  | held =>
    dsimp only
    split
    · exact move _ _ (List.prefix_refl _) rfl rfl
    · exact move _ _ (List.prefix_refl _) rfl rfl
  | listen => exact stay
  | pairing | verify | train | qualify | up | backoff => exact bye _

/-! ## A refusal of the cable (R77, R78) -/

theorem Link.refuse_record (e : Env) (lk : Link) : (lk.refuse e).record = lk.record.move e.uptime .held := by
  unfold Link.refuse
  rw [Link.move_record, Link.byeIfConversing_record]

theorem Link.refuse_toLog (e : Env) (lk : Link) : (lk.refuse e).toLog = lk.toLog := by
  unfold Link.refuse
  rw [Link.move_toLog, Link.byeIfConversing_toLog]

theorem Link.refuse_gate (e : Env) (lk : Link) : (lk.refuse e).gate = false := by
  unfold Link.refuse
  rw [Link.move_gate]
  rfl

theorem Link.refuse_bye (e : Env) {lk : Link} (h : lk.record.state.conversing = true) :
    (lk.refuse e).bye = some ⟨.refused, 2⟩ := by
  unfold Link.refuse
  rw [Link.move_bye _ _ _ _ (by decide)]
  exact Link.byeIfConversing_bye lk .refused h

theorem Link.refuse_inbox (e : Env) (lk : Link) : lk.inbox <+: (lk.refuse e).inbox :=
  (lk.byeIfConversing_inbox .refused).trans (Link.move_inbox _ _ _ _)

/-! ## The width of the record's lists (R4, R29) -/

/-- A change of width touches the record's lists, and cuts off what the link sends where it has no lanes. -/
theorem Link.fitWidth_rest (e : Env) (lk : Link) (d : RowDelta) (leg : Fin 2) : ∃ map deskew lmis,
    { lk.fitWidth e d leg with bye := lk.bye, byeTimer := lk.byeTimer, tx := lk.tx, sending := lk.sending } =
      { lk with record := { lk.record with laneMap := map, deskew := deskew, laneLmis := lmis } } := by
  unfold Link.fitWidth Link.cutOff Link.cancelBye
  split
  · dsimp only
    split <;> exact ⟨_, _, _, rfl⟩
  · exact ⟨_, _, _, rfl⟩

theorem Link.fitWidth_kept (e : Env) (lk : Link) (d : RowDelta) (leg : Fin 2) :
    (lk.fitWidth e d leg).inbox = lk.inbox ∧ (lk.fitWidth e d leg).toLog = lk.toLog ∧
      (lk.fitWidth e d leg).gate = lk.gate ∧ (lk.fitWidth e d leg).record.state = lk.record.state ∧
      (lk.fitWidth e d leg).record.prev = lk.record.prev ∧
      (lk.fitWidth e d leg).record.lastReason = lk.record.lastReason ∧
      (lk.fitWidth e d leg).record.adminDown = lk.record.adminDown ∧
      (lk.fitWidth e d leg).record.selfCheck = lk.record.selfCheck ∧
      (lk.fitWidth e d leg).record.farExpect = lk.record.farExpect := by
  obtain ⟨map, deskew, lmis, h⟩ := lk.fitWidth_rest e d leg
  exact ⟨(congrArg Link.inbox h :), (congrArg Link.toLog h :), (congrArg Link.gate h :),
    (congrArg (fun x : Link => x.record.state) h :), (congrArg (fun x : Link => x.record.prev) h :),
    (congrArg (fun x : Link => x.record.lastReason) h :), (congrArg (fun x : Link => x.record.adminDown) h :),
    (congrArg (fun x : Link => x.record.selfCheck) h :), (congrArg (fun x : Link => x.record.farExpect) h :)⟩

/-- A link with lanes before and after keeps what it sends. -/
theorem Link.fitWidth_bye {e : Env} {d : RowDelta} {leg : Fin 2} (h : e.present = true ∧ d.present leg = true) (lk : Link) :
    (lk.fitWidth e d leg).bye = lk.bye := by
  cases hs : d.splitChanged with
  | true => simp only [Link.fitWidth, hs, if_true, if_pos h]
  | false => rw [lk.fitWidth_same e d leg hs]

theorem Link.fitWidth_blank {d : RowDelta} (h : d.splitChanged = true) (e : Env) (lk : Link) (leg : Fin 2) :
    (lk.fitWidth e d leg).record.blank e.width := by
  rw [lk.fitWidth_record e d leg h]
  exact ⟨rfl, rfl, rfl⟩

end Sys2Proof.Machine
end


section
/-! PROOFS. ROW_CHANGE: rows disabled, INVALID, enabled and of another class. -/

namespace Sys2Proof.Machine

-- One declaration at a time: the threads of a parallel elaboration exceed the memory of the check.
set_option Elab.async false

/-! ## What every row change keeps (R24, R27) -/

theorem Link.raiseIdentity_inbox (e : Env) (lk : Link) (n : Tag) : (lk.raiseIdentity e n).inbox = lk.inbox :=
  lk.raise_inbox e _ _ _ _ _

theorem Link.reverify_inbox (e : Env) (lk : Link) : (lk.reverify e).1.inbox = lk.inbox := by
  have identity : (lk.checkIdentity e).inbox = lk.inbox := by
    unfold Link.checkIdentity
    split
    · exact Link.raise_inbox ..
    · rfl
  have order : ∀ x : Link, (x.checkOrder e).inbox = x.inbox := fun x => by
    unfold Link.checkOrder
    split
    · exact Link.raise_inbox ..
    · rfl
  have length : ∀ x : Link, (x.checkLength e).inbox = x.inbox := fun x => by
    unfold Link.checkLength
    split
    · exact Link.raise_inbox ..
    · rfl
  rw [Link.reverify_fst, length, order, identity]

theorem Link.listenPolicy_inbox (lk : Link) (old new : Option ExpectKind) : (lk.listenPolicy old new).inbox = lk.inbox := by
  unfold Link.listenPolicy
  dsimp only
  split
  · rfl
  split
  · rfl
  split <;> rfl

theorem Link.policyChanges_inbox (e : Env) (lk : Link) (old new : Option ExpectKind) :
    lk.inbox <+: (lk.policyChanges e old new).inbox := by
  have verified : ∀ {p : Link × Option DiscKind}, lk.reverify e = p → lk.inbox = p.1.inbox := fun h =>
    h ▸ (lk.reverify_inbox e).symm
  have restart : ∀ x : Link, lk.inbox = x.inbox → lk.inbox <+: (x.restart e).inbox := fun x h =>
    h ▸ (x.restart_kept e).1
  unfold Link.policyChanges
  cases lk.record.state with
  | up =>
    dsimp only
    split
    · exact restart lk rfl
    · split
      · next h => rw [verified h]
      · next x k h =>
        split
        · rw [verified h]
          exact Link.refuse_inbox e (x.setReason (.disc k))
        · rw [verified h]
  | held =>
    dsimp only
    split
    · split
      · exact restart lk rfl
      · split
        · next h => exact restart _ (verified h)
        · next h =>
          split
          · exact restart _ (verified h)
          · rw [verified h]
            exact List.prefix_refl _
    · exact List.prefix_refl _
  | listen => rw [← lk.listenPolicy_inbox old new]
  | off | backoff => exact List.prefix_refl _
  | pairing | verify | train | qualify => exact restart lk rfl

theorem Link.fitWidth_inbox (e : Env) (lk : Link) (d : RowDelta) (leg : Fin 2) : (lk.fitWidth e d leg).inbox = lk.inbox :=
  (lk.fitWidth_kept e d leg).1

/-- A row change keeps the events that wait. -/
theorem Link.reconcile_inbox (e : Env) (lk : Link) (d : RowDelta) (leg : Fin 2) :
    lk.inbox <+: (lk.reconcile e d leg).inbox := by
  have stopped : lk.inbox <+: ((lk.stop e .plan).fitWidth e d leg).inbox := by
    rw [Link.fitWidth_inbox]
    exact lk.stop_inbox e .plan
  unfold Link.reconcile
  cases d.case leg with
  | invalid cause =>
    dsimp only [Link.rowInvalid]
    split
    · rw [Link.raise_inbox]
      exact stopped
    · exact stopped
  | disabled =>
    dsimp only [Link.rowDisabled]
    split
    · rw [lk.fitWidth_inbox]
    · exact stopped
  | enabled =>
    dsimp only [Link.rowEnabled]
    split
    · have k := ((lk.fitWidth e d leg).restart_kept e).1
      rwa [lk.fitWidth_inbox] at k
    · rw [lk.fitWidth_inbox]
  | split => exact stopped
  | policy => exact lk.policyChanges_inbox e _ _
  | cls =>
    dsimp only [Link.classChanges]
    cases lk.record.state with
    | pairing | verify | train | qualify => exact (lk.restart_kept e).1
    | off | listen | up | backoff | held => exact List.prefix_refl _
  | widthOnly =>
    dsimp only
    rw [lk.fitWidth_inbox]
  | nothing => exact List.prefix_refl _

theorem Link.splitStart_inbox (e : Env) (lk : Link) (d : RowDelta) (leg : Fin 2) :
    lk.inbox <+: (lk.splitStart e d leg).inbox := by
  unfold Link.splitStart
  split
  · exact List.prefix_refl _
  split
  · exact (lk.restart_kept e).1
  · exact List.prefix_refl _

/-- The second half of a row change: the retry limit, after the restart of a change of split. -/
theorem Link.reconcileEnd_eq (e : Env) (lk : Link) (d : RowDelta) (leg : Fin 2) : ∃ retries,
    lk.reconcileEnd e d leg = { (if d.case leg = .split then lk.splitStart e d leg else lk) with
      record := { (if d.case leg = .split then lk.splitStart e d leg else lk).record with retries := retries } } ∧
    retries ≤ (if d.case leg = .split then lk.splitStart e d leg else lk).record.retries ∧
    (∀ p, d.new.leg leg = some p →
      retries = min (if d.case leg = .split then lk.splitStart e d leg else lk).record.retries p.retryLimit) := by
  unfold Link.reconcileEnd
  generalize (if d.case leg = .split then lk.splitStart e d leg else lk) = x
  dsimp only
  split
  · next p hp =>
    refine ⟨_, rfl, Nat.min_le_left _ _, fun q hq => ?_⟩
    rw [hp] at hq
    rw [Option.some.inj hq]
  · next hp =>
    refine ⟨x.record.retries, rfl, le_rfl, fun q hq => ?_⟩
    rw [hp] at hq
    exact absurd hq nofun

theorem Link.reconcileEnd_inbox (e : Env) (lk : Link) (d : RowDelta) (leg : Fin 2) :
    lk.inbox <+: (lk.reconcileEnd e d leg).inbox := by
  obtain ⟨r, h, _⟩ := lk.reconcileEnd_eq e d leg
  rw [h]
  dsimp only
  split
  · exact lk.splitStart_inbox e d leg
  · exact List.prefix_refl _

/-- A row change other than a change of split ends with the retry limit alone. -/
theorem Link.reconcileEnd_plain {e : Env} {d : RowDelta} {leg : Fin 2} (h : d.case leg ≠ .split) (lk : Link) : ∃ retries,
    lk.reconcileEnd e d leg = { lk with record := { lk.record with retries := retries } } ∧ retries ≤ lk.record.retries ∧
    (∀ p, d.new.leg leg = some p → retries = min lk.record.retries p.retryLimit) := by
  have k := lk.reconcileEnd_eq e d leg
  rwa [if_neg h] at k

/-! ## The command -/

/-- ROW_CHANGE: the link takes its oldest event in its two halves, and LOADING may go on (R14, R27). -/
theorem rowChange_takes {s : State} {l : LinkId} {d : RowDelta} {rest : List SeqEvent}
    (h : (s.link l).inbox = .rowChange d :: rest) : ∃ t, exec (.rowChange l) s = .next t ∧
      (∃ u, OnlyLink l s u ∧ LoadGoesOn u t) ∧
      t.link l = (({ s.link l with inbox := rest } : Link).reconcile (s.env l) d (legOf l)).reconcileEnd (s.env l) d
        (legOf l) := by
  obtain ⟨hno, _⟩ | ⟨d', rest', u, hi, only, hu, e⟩ := rowChange_cases l s
  · exact absurd (by rw [h]; rfl) (hno d)
  · obtain ⟨hd, rfl⟩ := List.cons.inj (hi.symm.trans h)
    obtain rfl := SeqEvent.rowChange.inj hd
    refine ⟨_, e, ⟨u, only, u.checkReconciled_goesOn⟩, ?_⟩
    have links : u.checkReconciled.links = u.links := (congrArg State.links u.checkReconciled_goesOn.rest :)
    rw [State.link_congr links l, hu, State.link_onLink, State.link_takeEvent s l _ h,
      (s.takeEvent_only l fun e lk => lk.reconcile e d' (legOf l)).env]

/-- What a sequencer reads of its row, by the row. -/
theorem State.env_row (s : State) (l : LinkId) {v : RowState} (h : s.row (portOf l) = v) :
    (s.env l).usable = v.usable ∧ (s.env l).width = legWidth v.split (legOf l) ∧
      (s.env l).present = decide (legWidth v.split (legOf l) ≠ 0) ∧ ∀ p, v.leg (legOf l) = some p → (s.env l).leg = p := by
  subst h
  refine ⟨rfl, rfl, rfl, fun p hp => ?_⟩
  change (Option.getD _ _) = p
  rw [hp]
  rfl

theorem RowDelta.case_valid {d : RowDelta} {r : PlanRow} (h : d.new = .valid r) (leg : Fin 2) : d.case leg =
    if ¬r.enable then
      if d.old.enabled? ≠ some false then .disabled
      else if d.splitChanged then .widthOnly else .nothing
    else if d.old.enabled? ≠ some true then .enabled
    else if d.splitChanged then .split
    else if d.legChanged leg LegPlan.policy then .policy
    else if d.legChanged leg (·.cls) then .cls
    else .nothing := by
  unfold RowDelta.case
  rw [h]

/-- Settles O24. -/
theorem rowChangeReconciles : Obligations.RowChangeReconciles := by
  intro s l d rest hi hrow
  obtain ⟨t, exec, only, link⟩ := rowChange_takes hi
  obtain ⟨usable, _, present, _⟩ := s.env_row l hrow
  have same : (s.env l).present = d.present (legOf l) := present
  rw [show s.uptime = (s.env l).uptime from rfl]
  generalize s.env l = e at link usable present same ⊢
  obtain ⟨lk, hlk⟩ : ∃ lk : Link, lk = { s.link l with inbox := rest } := ⟨_, rfl⟩
  have record : lk.record = (s.link l).record := by rw [hlk]
  have log : lk.toLog = (s.link l).toLog := by rw [hlk]
  have inbox : lk.inbox = rest := by rw [hlk]
  rw [← hlk] at link
  rw [← record, ← log, ← inbox]
  refine ⟨t, exec, only, ?_, fun p hp => ?_, fun ⟨r, hnew, off, hold⟩ => ?_, fun cause hnew => ?_,
    fun ⟨r, hnew, on, hold⟩ hpres hup hfree => ?_, fun hcls hstate => ?_, fun hcase hstate => ?_⟩
  · rw [link]
    exact (lk.reconcile_inbox e d _).trans (Link.reconcileEnd_inbox e _ d _)
  · obtain ⟨n, h, _, hmin⟩ := (lk.reconcile e d (legOf l)).reconcileEnd_eq e d (legOf l)
    rw [link, h]
    exact (hmin p hp).trans_le (Nat.min_le_right _ _)
  · have case : d.case (legOf l) = .disabled := by
      rw [RowDelta.case_valid hnew, if_pos (by rw [off]; exact Bool.false_ne_true), if_pos hold]
    obtain ⟨n, h, _⟩ := Link.reconcileEnd_plain (e := e) (by rw [case]; decide) (lk.reconcile e d (legOf l))
    have first : lk.reconcile e d (legOf l) = lk.rowDisabled e d (legOf l) := by
      unfold Link.reconcile
      rw [case]
    rw [link, h, first]
    dsimp only
    unfold Link.rowDisabled
    by_cases hoff : lk.record.state = .off
    · rw [if_pos hoff]
      refine ⟨(lk.fitWidth_kept e d _).2.2.2.1.trans hoff, fun x => absurd hoff x, fun talks => ?_⟩
      rw [hoff] at talks
      exact Bool.noConfusion talks
    · rw [if_neg hoff]
      refine ⟨((lk.stop e .plan).fitWidth_kept e d _).2.2.2.1.trans (lk.stop_state e .plan), fun _ => rfl, fun talks hp => ?_⟩
      exact (Link.fitWidth_bye ⟨hp, same ▸ hp⟩ _).trans (lk.stop_bye e talks .plan)
  · have case : d.case (legOf l) = .invalid cause := by
      unfold RowDelta.case
      rw [hnew]
    obtain ⟨n, h, _⟩ := Link.reconcileEnd_plain (e := e) (by rw [case]; exact nofun) (lk.reconcile e d (legOf l))
    have first : lk.reconcile e d (legOf l) = lk.rowInvalid e d (legOf l) cause := by
      unfold Link.reconcile
      rw [case]
    obtain ⟨_, toLog, _, state, _, _, _, _, far⟩ := (lk.stop e .plan).fitWidth_kept e d (legOf l)
    rw [link, h, first]
    dsimp only
    unfold Link.rowInvalid
    dsimp only
    by_cases leg : legOf l = 0
    · rw [if_pos leg, Link.raise_record, Link.raise_toLog, if_neg (by decide), toLog, far, (lk.stop_kept e .plan).2.2.2,
        lk.stop_toLog e .plan]
      exact ⟨state.trans (lk.stop_state e .plan), rfl, fun _ => rfl⟩
    · rw [if_neg leg]
      exact ⟨state.trans (lk.stop_state e .plan), rfl, fun x => absurd x leg⟩
  · have case : d.case (legOf l) = .enabled := by
      rw [RowDelta.case_valid hnew, if_neg (by rw [on]; simp), if_pos hold]
    obtain ⟨n, h, hle, _⟩ := Link.reconcileEnd_plain (e := e) (by rw [case]; decide) (lk.reconcile e d (legOf l))
    have first : lk.reconcile e d (legOf l) = (lk.fitWidth e d (legOf l)).restart e := by
      unfold Link.reconcile
      rw [case]
      unfold Link.rowEnabled
      have up : (lk.fitWidth e d (legOf l)).record.adminDown = false := (lk.fitWidth_kept e d _).2.2.2.2.2.2.1.trans hup
      exact if_pos ⟨hpres, same ▸ hpres, by rw [up]; exact Bool.false_ne_true⟩
    obtain ⟨_, _, _, _, _, _, down, check, _⟩ := lk.fitWidth_kept e d (legOf l)
    obtain ⟨state, reason, retries⟩ := Link.restart_listens (lk := lk.fitWidth e d (legOf l))
      (usable.trans (by rw [hnew]; exact on)) hpres (down.trans hup) (check.trans hfree)
    rw [first, retries] at hle
    rw [link, h, first]
    exact ⟨state, reason, Nat.le_zero.1 hle⟩
  · obtain ⟨n, h, _⟩ := Link.reconcileEnd_plain (e := e) (by rw [hcls]; decide) (lk.reconcile e d (legOf l))
    have first : lk.reconcile e d (legOf l) = lk.restart e := by
      unfold Link.reconcile
      rw [hcls]
      unfold Link.classChanges
      simp only [List.mem_cons, List.not_mem_nil, or_false] at hstate
      rcases hstate with hs | hs | hs | hs <;> simp only [hs]
    have k := (Link.restart_restarted (e := e) (lk := lk) (by
      simp only [List.mem_cons, List.not_mem_nil, or_false] at hstate ⊢
      tauto)).1
    rw [link, h, first]
    exact ⟨k.state, k.reason⟩
  · have hne : d.case (legOf l) ≠ .split := fun x => by rw [x] at hcase; exact absurd hcase (by decide)
    obtain ⟨n, h, _⟩ := Link.reconcileEnd_plain (e := e) hne (lk.reconcile e d (legOf l))
    have first : lk.reconcile e d (legOf l) = lk := by
      unfold Link.reconcile
      simp only [List.mem_cons, List.not_mem_nil, or_false] at hcase
      rcases hcase with hc | hc
      · rw [hc]
        unfold Link.classChanges
        simp only [List.mem_cons, List.not_mem_nil, or_false] at hstate
        rcases hstate with hs | hs | hs | hs | hs <;> simp only [hs]
      · rw [hc]
    rw [link, h, first]

end Sys2Proof.Machine
end


section
/-! PROOFS. ROW_CHANGE: changes of split, and changes of policy with re-verification. -/

namespace Sys2Proof.Machine

-- One declaration at a time: the threads of a parallel elaboration exceed the memory of the check.
set_option Elab.async false

/-! ## The checks of re-verification (R30) -/

theorem Link.orderFault_congr {e : Env} {a b : Link} (h : a.record.laneMap = b.record.laneMap) :
    a.orderFault e = b.orderFault e := by
  unfold Link.orderFault
  rw [h]

theorem Link.lengthFault_congr {e : Env} {a b : Link} (h : a.record.length = b.record.length) :
    a.lengthFault e = b.lengthFault e := by
  unfold Link.lengthFault
  rw [h]

theorem Link.identityFault_some {e : Env} {lk : Link} {n : Tag} : lk.identityFault e = some n ↔
    ∃ want, e.leg.kind = .specific ∧ e.leg.tag = some want ∧ lk.neighbourTag = some n ∧ n ≠ want := by
  unfold Link.identityFault Env.expected
  by_cases hk : e.leg.kind = .specific
  · rw [if_pos hk]
    cases ht : e.leg.tag with
    | none => simp
    | some want =>
      cases hn : lk.neighbourTag with
      | none => simp
      | some m =>
        by_cases hm : m = want
        · simp [hm, hk]
          exact fun h => h.symm
        · simp only [hm, if_false, Option.some.injEq]
          constructor
          · rintro rfl
            exact ⟨want, hk, rfl, rfl, hm⟩
          · rintro ⟨_, _, _, h, _⟩
            exact h
  · rw [if_neg hk]
    simp [hk]

/-- The identity check fails as R30 says it. -/
theorem Link.fails_identity {e : Env} {lk : Link} :
    lk.record.fails e.leg .unexpectedNeighbour ↔ ∃ n, lk.identityFault e = some n := by
  simp only [Link.identityFault_some, Link.neighbourTag]
  constructor
  · rintro ⟨want, n, hk, ht, hn, hne⟩
    exact ⟨n.tag, want, hk, ht, by rw [hn]; rfl, hne⟩
  · rintro ⟨m, want, hk, ht, hn, hne⟩
    obtain ⟨n, there, rfl⟩ := Option.map_eq_some_iff.1 hn
    exact ⟨want, n, hk, ht, there, hne⟩

theorem laneOrderFault_isSome {map : List (Option LaneEntry)} : (∃ i, laneOrderFault map = some i) ↔
    ∃ (i : Lane) (en : LaneEntry), map[i.val]? = some (some en) ∧ (en.far ≠ i ∨ en.inverted = true) := by
  have entry : ∀ (i : Lane) (en : LaneEntry), map.getD i.val none = some en ↔ map[i.val]? = some (some en) := by
    intro i en
    rw [List.getD_eq_getElem?_getD]
    cases map[i.val]? with
    | none => simp
    | some x => simp
  unfold laneOrderFault
  rw [← Option.isSome_iff_exists, List.find?_isSome]
  constructor
  · rintro ⟨i, _, h⟩
    split at h
    · next en he => exact ⟨i, en, (entry i en).1 he, by simpa using h⟩
    · exact absurd h Bool.false_ne_true
  · rintro ⟨i, en, he, h⟩
    exact ⟨i, mem_allBelow i, by rw [(entry i en).2 he]; simpa using h⟩

/-- The lane order check fails as R30 and R100 say it. -/
theorem Link.fails_order {e : Env} {lk : Link} : lk.record.fails e.leg .laneOrder ↔ ∃ i, lk.orderFault e = some i := by
  unfold Link.orderFault
  by_cases hr : e.leg.remap = .forbid
  · rw [if_pos hr, laneOrderFault_isSome]
    exact and_iff_right hr
  · rw [if_neg hr]
    exact iff_of_false (fun h => hr h.1) nofun

theorem lengthFails_iff (m want tol : Nat) : lengthFails m want tol = true ↔ m + tol < want ∨ want + tol < m := by
  unfold lengthFails
  rw [decide_eq_true_eq]
  omega

theorem Link.lengthFault_some {e : Env} {lk : Link} {m : Nat} : lk.lengthFault e = some m ↔
    ∃ want tol, e.leg.length = some (want, tol) ∧ lk.record.length = some m ∧ (m + tol < want ∨ want + tol < m) := by
  unfold Link.lengthFault
  cases hl : e.leg.length with
  | none => simp
  | some x =>
    obtain ⟨want, tol⟩ := x
    cases hm : lk.record.length with
    | none => simp
    | some k =>
      by_cases hf : lengthFails k want tol = true
      · simp only [hf, if_true, Option.some.injEq]
        constructor
        · rintro rfl
          exact ⟨want, tol, rfl, rfl, (lengthFails_iff _ _ _).1 hf⟩
        · rintro ⟨_, _, _, h, _⟩
          exact h
      · simp only [hf, Bool.false_eq_true, if_false, Option.some.injEq]
        refine iff_of_false nofun ?_
        rintro ⟨w, t, hwt, rfl, h⟩
        obtain ⟨rfl, rfl⟩ := Prod.mk.inj hwt
        exact hf ((lengthFails_iff _ _ _).2 h)

/-- The length check fails as R30 and R109 say it. -/
theorem Link.fails_length {e : Env} {lk : Link} : lk.record.fails e.leg .length ↔ ∃ m, lk.lengthFault e = some m := by
  simp only [Link.lengthFault_some]
  constructor
  · rintro ⟨want, tol, m, h⟩
    exact ⟨m, want, tol, h⟩
  · rintro ⟨m, want, tol, h⟩
    exact ⟨want, tol, m, h⟩

/-! ## What re-verification leaves -/

theorem Link.raise_rest (e : Env) (lk : Link) (k : DiscKind) (d : Nat) (x o : Option Tag) (t : Word) :
    ∃ reason order, lk.raise e k d x o t = { lk with
      record := { lk.record with lastReason := reason }, toOrder := order,
      toLog := lk.toLog ++ [⟨k, BitVec.ofNat 32 d, x, o, lk.record.farExpect, t⟩] } := by
  unfold Link.raise
  dsimp only
  split
  · exact ⟨lk.record.lastReason, _, rfl⟩
  · exact ⟨_, _, rfl⟩

/-- `new` is `old` but for its last reason, its discrepancies and its events, the discrepancies having grown. -/
structure Link.Checked (old new : Link) : Prop where
  rest : { new with record := { new.record with lastReason := old.record.lastReason }, toLog := old.toLog,
                    toOrder := old.toOrder } = old
  log : old.toLog <+: new.toLog

theorem Link.Checked.refl (lk : Link) : lk.Checked lk := ⟨rfl, List.prefix_refl _⟩

theorem Link.Checked.trans {a b c : Link} (h : a.Checked b) (k : b.Checked c) : a.Checked c where
  rest := (congrArg (fun x : Link => { x with
    record := { x.record with lastReason := a.record.lastReason }, toLog := a.toLog, toOrder := a.toOrder }) k.rest :).trans
    h.rest
  log := h.log.trans k.log

theorem Link.raise_checked (e : Env) (lk : Link) (k : DiscKind) (d : Nat) (x o : Option Tag) (t : Word) :
    lk.Checked (lk.raise e k d x o t) := by
  obtain ⟨reason, order, h⟩ := lk.raise_rest e k d x o t
  rw [h]
  exact ⟨rfl, List.prefix_append _ _⟩

theorem Link.checkIdentity_checked (e : Env) (lk : Link) : lk.Checked (lk.checkIdentity e) := by
  unfold Link.checkIdentity
  split
  · exact lk.raise_checked e _ _ _ _ _
  · exact .refl lk

theorem Link.checkOrder_checked (e : Env) (lk : Link) : lk.Checked (lk.checkOrder e) := by
  unfold Link.checkOrder
  split
  · exact lk.raise_checked e _ _ _ _ _
  · exact .refl lk

theorem Link.checkLength_checked (e : Env) (lk : Link) : lk.Checked (lk.checkLength e) := by
  unfold Link.checkLength
  split
  · exact lk.raise_checked e _ _ _ _ _
  · exact .refl lk

theorem Link.Checked.laneMap {a b : Link} (h : a.Checked b) : b.record.laneMap = a.record.laneMap :=
  (congrArg (fun x : Link => x.record.laneMap) h.rest :)

theorem Link.Checked.length {a b : Link} (h : a.Checked b) : b.record.length = a.record.length :=
  (congrArg (fun x : Link => x.record.length) h.rest :)

theorem Link.Checked.neighbourTag {a b : Link} (h : a.Checked b) : b.neighbourTag = a.neighbourTag :=
  (congrArg Link.neighbourTag h.rest :)

theorem Link.reverify_checked (e : Env) (lk : Link) : lk.Checked (lk.reverify e).1 := by
  rw [Link.reverify_fst]
  exact ((lk.checkIdentity_checked e).trans (Link.checkOrder_checked e _)).trans (Link.checkLength_checked e _)

/-- Every check that fails is raised, with its detail (R30, R78, R133). -/
theorem Link.reverify_logs (e : Env) (lk : Link) (k : DiscKind) (h : lk.record.fails e.leg k) :
    ∃ x ∈ (lk.reverify e).1.toLog, x.kind = k ∧ x.time = e.uptime ∧
      (∀ n, k = .unexpectedNeighbour → lk.record.neighbour = some n → x.detail = n.tag.pack) ∧
      (∀ m, k = .length → lk.record.length = some m → x.detail = BitVec.ofNat 32 m) := by
  have identity := lk.checkIdentity_checked e
  have order := (lk.checkIdentity e).checkOrder_checked e
  have length := ((lk.checkIdentity e).checkOrder e).checkLength_checked e
  rw [Link.reverify_fst]
  cases k with
  | unexpectedNeighbour =>
    obtain ⟨n, hn⟩ := Link.fails_identity.1 h
    obtain ⟨_, _, _, tag, _⟩ := Link.identityFault_some.1 hn
    have here : lk.checkIdentity e = lk.raiseIdentity e n := by unfold Link.checkIdentity; rw [hn]
    refine ⟨_, (order.log.trans length.log).subset (by
      rw [here]; unfold Link.raiseIdentity; rw [Link.raise_toLog]; exact List.mem_append_right _ List.mem_cons_self),
      rfl, rfl, fun m _ hm => ?_, nofun⟩
    unfold Link.neighbourTag at tag
    rw [hm] at tag
    rw [← Option.some.inj tag]
    exact (BitVec.ofNat_toNat 32 _).trans (BitVec.setWidth_eq _)
  | laneOrder =>
    obtain ⟨i, hi⟩ := Link.fails_order.1 h
    rw [← Link.orderFault_congr identity.laneMap] at hi
    have here : (lk.checkIdentity e).checkOrder e = (lk.checkIdentity e).raiseOrder e i := by
      unfold Link.checkOrder; rw [hi]
    exact ⟨_, length.log.subset (by
      rw [here]; unfold Link.raiseOrder; rw [Link.raise_toLog]; exact List.mem_append_right _ List.mem_cons_self),
      rfl, rfl, nofun, nofun⟩
  | length =>
    obtain ⟨m, hm⟩ := Link.fails_length.1 h
    obtain ⟨_, _, _, len, _⟩ := Link.lengthFault_some.1 hm
    rw [← Link.lengthFault_congr (identity.trans order).length] at hm
    have here : ((lk.checkIdentity e).checkOrder e).checkLength e = ((lk.checkIdentity e).checkOrder e).raiseLength e m := by
      unfold Link.checkLength; rw [hm]
    refine ⟨_, by
      rw [here]; unfold Link.raiseLength; rw [Link.raise_toLog]; exact List.mem_append_right _ List.mem_cons_self,
      rfl, rfl, nofun, fun k _ hk => ?_⟩
    rw [len] at hk
    rw [Option.some.inj hk]
  | _ => exact absurd h id

/-- The kind of the first check that fails (R30). -/
theorem Link.reverify_snd (e : Env) (lk : Link) : (lk.reverify e).2 =
    ((lk.identityFault e).map fun _ => DiscKind.unexpectedNeighbour).or
      (((lk.orderFault e).map fun _ => DiscKind.laneOrder).or ((lk.lengthFault e).map fun _ => DiscKind.length)) := by
  have order := Link.orderFault_congr (e := e) (lk.checkIdentity_checked e).laneMap
  have length := Link.lengthFault_congr (e := e)
    ((lk.checkIdentity_checked e).trans ((lk.checkIdentity e).checkOrder_checked e)).length
  have first : ∀ x : Link, (x.checkIdentity e, (x.identityFault e).map fun _ => DiscKind.unexpectedNeighbour) =
      match x.identityFault e with
      | some n => (x.raiseIdentity e n, some DiscKind.unexpectedNeighbour)
      | none => (x, none) := fun x => by
    unfold Link.checkIdentity
    cases x.identityFault e <;> rfl
  have second : ∀ x : Link, (x.checkOrder e, (x.orderFault e).map fun _ => DiscKind.laneOrder) =
      match x.orderFault e with
      | some i => (x.raiseOrder e i, some DiscKind.laneOrder)
      | none => (x, none) := fun x => by
    unfold Link.checkOrder
    cases x.orderFault e <;> rfl
  have third : ∀ x : Link, (x.checkLength e, (x.lengthFault e).map fun _ => DiscKind.length) =
      match x.lengthFault e with
      | some m => (x.raiseLength e m, some DiscKind.length)
      | none => (x, none) := fun x => by
    unfold Link.checkLength
    cases x.lengthFault e <;> rfl
  have second' := congrArg Prod.snd (second (lk.checkIdentity e))
  rw [← order, ← length]
  refine (?_ : _ = (lk.checkIdentity e, (lk.identityFault e).map fun _ => DiscKind.unexpectedNeighbour).2.or
    (((lk.checkIdentity e).checkOrder e, ((lk.checkIdentity e).orderFault e).map fun _ => DiscKind.laneOrder).2.or
      (((lk.checkIdentity e).checkOrder e).checkLength e,
        (((lk.checkIdentity e).checkOrder e).lengthFault e).map fun _ => DiscKind.length).2))
  rw [third, second', show (lk.checkIdentity e).checkOrder e = _ from congrArg Prod.fst (second (lk.checkIdentity e)),
    first, show lk.checkIdentity e = _ from congrArg Prod.fst (first lk)]
  rfl

theorem Link.reverify_some {e : Env} {lk : Link} {k : DiscKind} :
    (lk.reverify e).2 = some k ↔ lk.record.failsFirst e.leg k := by
  rw [Link.reverify_snd]
  unfold LinkRecord.failsFirst
  rw [Link.fails_identity, Link.fails_order]
  cases hi : lk.identityFault e with
  | some n =>
    have fails : lk.record.fails e.leg .unexpectedNeighbour := Link.fails_identity.2 ⟨n, hi⟩
    simp only [Option.map_some, Option.some_or, Option.some.injEq]
    constructor
    · rintro rfl
      exact ⟨fails, fun x => absurd rfl x, nofun⟩
    · rintro ⟨_, hne, _⟩
      exact Classical.byContradiction fun x => hne (fun y => x y.symm) ⟨n, rfl⟩
  | none =>
    cases ho : lk.orderFault e with
    | some i =>
      have fails : lk.record.fails e.leg .laneOrder := Link.fails_order.2 ⟨i, ho⟩
      simp only [Option.map_none, Option.none_or, Option.map_some, Option.some_or, Option.some.injEq]
      constructor
      · rintro rfl
        exact ⟨fails, fun _ => nofun, nofun⟩
      · rintro ⟨h, _, hne⟩
        cases k with
        | laneOrder => rfl
        | length => exact absurd ⟨i, rfl⟩ (hne rfl)
        | unexpectedNeighbour => exact absurd (Link.fails_identity.1 h) (by rw [hi]; exact nofun)
        | _ => exact absurd h id
    | none =>
      simp only [Option.map_none, Option.none_or, Option.map_eq_some_iff]
      constructor
      · rintro ⟨m, hm, rfl⟩
        exact ⟨Link.fails_length.2 ⟨m, hm⟩, fun _ => nofun, fun _ => nofun⟩
      · rintro ⟨h, _, _⟩
        cases k with
        | length =>
          obtain ⟨m, hm⟩ := Link.fails_length.1 h
          exact ⟨m, hm, rfl⟩
        | unexpectedNeighbour => exact absurd (Link.fails_identity.1 h) (by rw [hi]; exact nofun)
        | laneOrder => exact absurd (Link.fails_order.1 h) (by rw [ho]; exact nofun)
        | _ => exact absurd h id

/-- Where no check fails, re-verification raises nothing. -/
theorem Link.reverify_passes {e : Env} {lk : Link} (h : ∀ k, ¬lk.record.fails e.leg k) : lk.reverify e = (lk, none) := by
  have identity : lk.identityFault e = none := Option.eq_none_iff_forall_ne_some.2 fun n hn =>
    h _ (Link.fails_identity.2 ⟨n, hn⟩)
  have order : lk.orderFault e = none := Option.eq_none_iff_forall_ne_some.2 fun i hi =>
    h _ (Link.fails_order.2 ⟨i, hi⟩)
  have length : lk.lengthFault e = none := Option.eq_none_iff_forall_ne_some.2 fun m hm =>
    h _ (Link.fails_length.2 ⟨m, hm⟩)
  refine Prod.ext ?_ ?_
  · simp only [Link.reverify_fst, Link.checkIdentity, identity, Link.checkOrder, order, Link.checkLength, length]
  · rw [Link.reverify_snd, identity, order, length]
    rfl

/-! ## A change of policy (R31) -/

theorem Link.policyChanges_running {e : Env} {lk : Link} (h : lk.record.state ∈ [LinkState.pairing, .verify, .train, .qualify])
    (old new : Option ExpectKind) : lk.policyChanges e old new = lk.restart e := by
  unfold Link.policyChanges
  simp only [List.mem_cons, List.not_mem_nil, or_false] at h
  rcases h with h | h | h | h <;> simp only [h]

theorem Link.heldForPlan_iff (lk : Link) : lk.heldForPlan = true ↔
    lk.record.lastReason ∈ [Reason.disc .unexpectedNeighbour, .disc .laneOrder, .disc .length] := by
  simp only [Link.heldForPlan, decide_eq_true_eq, List.mem_cons, List.not_mem_nil, or_false]

theorem Link.policyChanges_still {e : Env} {lk : Link} (h : lk.record.state ∈ [LinkState.off, .backoff] ∨
    (lk.record.state = .held ∧ lk.record.lastReason ≠ .disc .unexpectedNeighbour ∧
      lk.record.lastReason ≠ .disc .laneOrder ∧ lk.record.lastReason ≠ .disc .length)) (old new : Option ExpectKind) :
    lk.policyChanges e old new = lk := by
  unfold Link.policyChanges
  simp only [List.mem_cons, List.not_mem_nil, or_false] at h
  rcases h with (h | h) | ⟨h, h1, h2, h3⟩
  · simp only [h]
  · simp only [h]
  · simp only [h, Link.heldForPlan, h1, h2, h3, or_self, decide_false, Bool.false_eq_true, if_false]

theorem Link.policyChanges_up {e : Env} {lk : Link} (h : lk.record.state = .up) (old new : Option ExpectKind) :
    lk.policyChanges e old new =
      if new = some .none then lk.restart e
      else match (lk.reverify e).2 with
        | none => (lk.reverify e).1
        | some k => if e.leg.strict = .enforce then ((lk.reverify e).1.setReason (.disc k)).refuse e
          else (lk.reverify e).1 := by
  unfold Link.policyChanges
  simp only [h]
  split
  · rfl
  · obtain ⟨x, k⟩ := lk.reverify e
    cases k <;> rfl

theorem Link.policyChanges_held {e : Env} {lk : Link} (h : lk.record.state = .held)
    (plan : lk.record.lastReason ∈ [Reason.disc .unexpectedNeighbour, .disc .laneOrder, .disc .length])
    (old new : Option ExpectKind) : lk.policyChanges e old new =
      if new = some .none then lk.restart e
      else match (lk.reverify e).2 with
        | none => (lk.reverify e).1.restart e
        | some k => if e.leg.strict = .report then (lk.reverify e).1.restart e
          else (lk.reverify e).1.setReason (.disc k) := by
  unfold Link.policyChanges
  simp only [h, if_pos (lk.heldForPlan_iff.2 plan)]
  split
  · rfl
  · obtain ⟨x, k⟩ := lk.reverify e
    cases k <;> rfl

/-- What a link in LISTEN makes of a change of policy (R31, R83). -/
theorem Link.listenPolicy_spec (lk : Link) (old new : ExpectKind) :
    (lk.listenPolicy (some old) (some new)).record = lk.record ∧
      (old = new → (lk.listenPolicy (some old) (some new)).timers = lk.timers) ∧
      (old ≠ .none → new = .none → (lk.listenPolicy (some old) (some new)).timers.presence = none) ∧
      (old = .none → new ≠ .none → (lk.listenPolicy (some old) (some new)).timers.presence = some 2000000000) ∧
      (old ≠ new → (lk.listenPolicy (some old) (some new)).stage.heard = false) := by
  unfold Link.listenPolicy
  simp only [Option.some.injEq]
  by_cases same : old = new
  · rw [if_pos same]
    exact ⟨rfl, fun _ => rfl, fun h1 h2 => absurd (same.trans h2) h1, fun h1 h2 => absurd (same.symm.trans h1) h2,
      fun h => absurd same h⟩
  rw [if_neg same]
  by_cases hnew : new = .none
  · rw [if_pos hnew]
    exact ⟨rfl, fun h => absurd h same, fun _ _ => rfl, fun _ h => absurd hnew h, fun _ => rfl⟩
  rw [if_neg hnew]
  by_cases hold : old = .none
  · rw [if_pos hold]
    exact ⟨rfl, fun h => absurd h same, fun h _ => absurd hold h, fun _ _ => rfl, fun _ => rfl⟩
  · rw [if_neg hold]
    exact ⟨rfl, fun h => absurd h same, fun _ h => absurd h hnew, fun h _ => absurd h hold, fun _ => rfl⟩

/-! ## A change of split (R4, R29) -/

/-- The lists have the new width, and a link without lanes sends nothing (R4). -/
structure Link.Fitted (e : Env) (d : RowDelta) (leg : Fin 2) (lk : Link) : Prop where
  blank : lk.record.blank e.width
  silent : ¬(e.present = true ∧ d.present leg = true) → lk.bye = none ∧ lk.tx = [] ∧ lk.sending = none

theorem Link.fitWidth_fitted {d : RowDelta} (h : d.splitChanged = true) (e : Env) (lk : Link) (leg : Fin 2) :
    Link.Fitted e d leg (lk.fitWidth e d leg) where
  blank := Link.fitWidth_blank h e lk leg
  silent no := by
    unfold Link.fitWidth
    simp only [h, if_true, if_neg no]
    exact ⟨rfl, rfl, rfl⟩

theorem Link.Fitted.restart {e : Env} {d : RowDelta} {leg : Fin 2} {lk : Link} (h : Link.Fitted e d leg lk)
    (lanes : e.present = true ∧ d.present leg = true) : Link.Fitted e d leg (lk.restart e) :=
  ⟨(lk.restart_kept e).2.2 _ h.blank, fun no => absurd lanes no⟩

theorem Link.Fitted.setReason {e : Env} {d : RowDelta} {leg : Fin 2} {lk : Link} (h : Link.Fitted e d leg lk) (r : Reason) :
    Link.Fitted e d leg (lk.setReason r) := ⟨h.blank, h.silent⟩

theorem RowDelta.case_of_split {d : RowDelta} (changed : d.splitChanged = true) (there : d.new ≠ .absent) (leg : Fin 2) :
    (∃ cause, d.case leg = .invalid cause) ∨ d.case leg ∈ [RowCase.disabled, .enabled, .split, .widthOnly] := by
  unfold RowDelta.case
  cases hn : d.new with
  | invalid cause => exact .inl ⟨cause, rfl⟩
  | absent => exact absurd hn there
  | valid r =>
    right
    simp only [changed, if_true]
    split
    · split <;> decide
    · split <;> decide

/-- A change of split leaves its link fitted to the new width. -/
theorem Link.reconcile_fitted {d : RowDelta} (changed : d.splitChanged = true) (there : d.new ≠ .absent) (e : Env)
    (lk : Link) (leg : Fin 2) : Link.Fitted e d leg (lk.reconcile e d leg) := by
  have stopped := (lk.stop e .plan).fitWidth_fitted (e := e) changed leg
  have fit := lk.fitWidth_fitted (e := e) changed leg
  unfold Link.reconcile
  obtain ⟨cause, h⟩ | h := RowDelta.case_of_split changed there leg
  · rw [h]
    dsimp only [Link.rowInvalid]
    split
    · obtain ⟨reason, order, raised⟩ := ((lk.stop e .plan).fitWidth e d leg).raise_rest e .planRowInvalid cause.code none
        none e.uptime
      rw [raised]
      exact ⟨stopped.blank, stopped.silent⟩
    · exact stopped.setReason _
  · simp only [List.mem_cons, List.not_mem_nil, or_false] at h
    rcases h with h | h | h | h
    · rw [h]
      dsimp only [Link.rowDisabled]
      split
      · exact fit
      · exact stopped.setReason _
    · rw [h]
      dsimp only [Link.rowEnabled]
      split
      · next lanes => exact fit.restart ⟨lanes.1, lanes.2.1⟩
      · exact fit
    · rw [h]
      exact stopped
    · rw [h]
      exact fit

theorem Link.reconcileEnd_fitted {e : Env} {d : RowDelta} {leg : Fin 2} {lk : Link} (h : Link.Fitted e d leg lk) :
    Link.Fitted e d leg (lk.reconcileEnd e d leg) := by
  obtain ⟨n, eq, _⟩ := lk.reconcileEnd_eq e d leg
  rw [eq]
  have start : Link.Fitted e d leg (if d.case leg = .split then lk.splitStart e d leg else lk) := by
    split
    · unfold Link.splitStart
      split
      · exact h
      split
      · next lanes => exact h.restart lanes
      · exact h.setReason _
    · exact h
  exact ⟨start.blank, start.silent⟩

/-- A change of split on a row that stays enabled: the link in OFF under its new width, then restarted, or
PLAN_DISABLED (R29). -/
theorem Link.reconcile_split {e : Env} {d : RowDelta} {leg : Fin 2} (case : d.case leg = .split) (lk : Link) : ∃ n,
    (lk.reconcile e d leg).reconcileEnd e d leg = { ((lk.stop e .plan).fitWidth e d leg).splitStart e d leg with
      record := { (((lk.stop e .plan).fitWidth e d leg).splitStart e d leg).record with retries := n } } ∧
    n ≤ (((lk.stop e .plan).fitWidth e d leg).splitStart e d leg).record.retries := by
  have first : lk.reconcile e d leg = (lk.stop e .plan).fitWidth e d leg := by
    unfold Link.reconcile
    rw [case]
    rfl
  obtain ⟨n, h, le, _⟩ := (lk.reconcile e d leg).reconcileEnd_eq e d leg
  rw [if_pos case, first] at h le
  exact ⟨n, by rw [first, h], le⟩

/-- What a change of split does by the admin flag and by the presence of the link (R29). -/
theorem Link.splitStart_spec {e : Env} {d : RowDelta} {leg : Fin 2} (usable : e.usable = true) (lk : Link) :
    (lk.record.adminDown = true → (((lk.stop e .plan).fitWidth e d leg).splitStart e d leg).record.state = .off ∧
      (((lk.stop e .plan).fitWidth e d leg).splitStart e d leg).record.lastReason = lk.record.lastReason) ∧
    (lk.record.adminDown = false → (e.present = true ∧ d.present leg = true) → lk.record.selfCheck = false →
      (((lk.stop e .plan).fitWidth e d leg).splitStart e d leg).record.state = .listen ∧
      (((lk.stop e .plan).fitWidth e d leg).splitStart e d leg).record.prev = .off ∧
      (((lk.stop e .plan).fitWidth e d leg).splitStart e d leg).record.retries = 0 ∧
      (((lk.stop e .plan).fitWidth e d leg).splitStart e d leg).record.lastReason = .planRestart ∧
      (((lk.stop e .plan).fitWidth e d leg).splitStart e d leg).gate = false ∧
      (lk.record.state.conversing = true →
        (((lk.stop e .plan).fitWidth e d leg).splitStart e d leg).bye = some ⟨.plan, 2⟩)) ∧
    (lk.record.adminDown = false → ¬(e.present = true ∧ d.present leg = true) →
      (((lk.stop e .plan).fitWidth e d leg).splitStart e d leg).record.state = .off ∧
      (((lk.stop e .plan).fitWidth e d leg).splitStart e d leg).record.lastReason = .planDisabled) := by
  obtain ⟨_, _, _, state, _, reason, down, check, _⟩ := (lk.stop e .plan).fitWidth_kept e d leg
  obtain ⟨reason', down', check', _⟩ := lk.stop_kept e .plan
  have off := state.trans (lk.stop_state e .plan)
  have bye : (e.present = true ∧ d.present leg = true) → lk.record.state.conversing = true →
      ((lk.stop e .plan).fitWidth e d leg).bye = some ⟨.plan, 2⟩ := fun lanes talks =>
    (Link.fitWidth_bye lanes _).trans (lk.stop_bye e talks .plan)
  rw [reason'] at reason
  rw [← down.trans down', ← check.trans check', ← reason]
  generalize (lk.stop e .plan).fitWidth e d leg = x at off bye ⊢
  unfold Link.splitStart
  refine ⟨fun h => ?_, fun h lanes free => ?_, fun h no => ?_⟩
  · rw [if_pos h]
    exact ⟨off, rfl⟩
  · rw [if_neg (by rw [h]; exact Bool.false_ne_true), if_pos lanes, Link.restart_off off usable lanes.1 h free]
    have k := x.restartMarks_restarted e
    exact ⟨k.state, k.prev.trans off, k.retries, k.reason, k.gate, fun talks => by
      rw [Link.move_bye _ _ _ _ (by decide)]
      exact bye lanes talks⟩
  · rw [if_neg (by rw [h]; exact Bool.false_ne_true), if_neg no]
    exact ⟨off, rfl⟩

/-- What re-verification keeps. -/
theorem Link.Checked.kept {a b : Link} (h : a.Checked b) : b.record.state = a.record.state ∧ b.gate = a.gate ∧
    b.record.selfCheck = a.record.selfCheck ∧ b.record.retries = a.record.retries :=
  ⟨(congrArg (fun x : Link => x.record.state) h.rest :), (congrArg Link.gate h.rest :),
    (congrArg (fun x : Link => x.record.selfCheck) h.rest :), (congrArg (fun x : Link => x.record.retries) h.rest :)⟩

theorem LinkRecord.failsFirst.fails {r : LinkRecord} {p : LegPlan} {k : DiscKind} (h : r.failsFirst p k) : r.fails p k := h.1

/-- A policy change of a link in UP that keeps its expectation raises what re-verification raises (R30, R31). -/
theorem Link.policyChanges_toLog {e : Env} {lk : Link} (h : lk.record.state = .up) (old : Option ExpectKind)
    {new : Option ExpectKind} (wants : new ≠ some .none) : (lk.policyChanges e old new).toLog = (lk.reverify e).1.toLog := by
  rw [Link.policyChanges_up h, if_neg wants]
  split
  · rfl
  · split
    · exact Link.refuse_toLog e _
    · rfl

/-- The first check that fails refuses the cable of a link in UP under ENFORCE, and keeps UP under REPORT (R31). -/
theorem Link.policyChanges_fails {e : Env} {lk : Link} (h : lk.record.state = .up) (old : Option ExpectKind)
    {new : Option ExpectKind} (wants : new ≠ some .none) {k : DiscKind} (first : lk.record.failsFirst e.leg k) :
    (e.leg.strict = .enforce → (lk.policyChanges e old new).record.state = .held ∧
      (lk.policyChanges e old new).record.prev = .up ∧ (lk.policyChanges e old new).record.lastReason = .disc k ∧
      (lk.policyChanges e old new).bye = some ⟨.refused, 2⟩ ∧ (lk.policyChanges e old new).gate = false) ∧
    (e.leg.strict = .report → (lk.policyChanges e old new).record.state = .up ∧
      (lk.policyChanges e old new).gate = lk.gate) := by
  rw [Link.policyChanges_up h, if_neg wants, Link.reverify_some.2 first]
  dsimp only
  obtain ⟨state, gate, _, _⟩ := (lk.reverify_checked e).kept
  rw [h] at state
  constructor
  · intro strict
    rw [if_pos strict]
    refine ⟨?_, ?_, ?_, Link.refuse_bye e ?_, Link.refuse_gate e _⟩
    · rw [Link.refuse_record, LinkRecord.move_state]
    · rw [Link.refuse_record, LinkRecord.move_prev]
      exact state
    · rw [Link.refuse_record, LinkRecord.move_lastReason]
      rfl
    · change (lk.reverify e).1.record.state.conversing = true
      rw [state]
      rfl
  · intro strict
    rw [if_neg (by rw [strict]; decide)]
    exact ⟨state, gate⟩

/-- A link held for a plan reason is restarted where its checks pass or are only reported, and where no cable is expected
(R31). -/
theorem Link.policyChanges_frees {e : Env} {lk : Link} (h : lk.record.state = .held) (free : lk.record.selfCheck = false)
    (plan : lk.record.lastReason ∈ [Reason.disc .unexpectedNeighbour, .disc .laneOrder, .disc .length])
    (old : Option ExpectKind) {new : Option ExpectKind}
    (passes : new = some .none ∨ (∀ k, ¬lk.record.fails e.leg k) ∨ e.leg.strict = .report) : ∃ x : Link,
      x.record.state = .held ∧ lk.policyChanges e old new = x.restartMarks.move e .listen := by
  obtain ⟨state, _, check, _⟩ := (lk.reverify_checked e).kept
  rw [h] at state
  have again : (lk.reverify e).1.restart e = (lk.reverify e).1.restartMarks.move e .listen :=
    Link.restart_held state (check.trans free)
  rw [Link.policyChanges_held h plan]
  split
  · exact ⟨lk, h, Link.restart_held h free⟩
  · next wants =>
    split
    · exact ⟨_, state, again⟩
    · next k hk =>
      obtain no | passes | report := passes
      · exact absurd no wants
      · exact absurd (Link.reverify_some.1 hk).fails (passes k)
      · rw [if_pos report]
        exact ⟨_, state, again⟩

/-- Under ENFORCE the first check that fails holds the link, with its reason (R31). -/
theorem Link.policyChanges_holds {e : Env} {lk : Link} (h : lk.record.state = .held)
    (plan : lk.record.lastReason ∈ [Reason.disc .unexpectedNeighbour, .disc .laneOrder, .disc .length])
    (old : Option ExpectKind) {new : Option ExpectKind} (wants : new ≠ some .none) (strict : e.leg.strict = .enforce)
    {k : DiscKind} (first : lk.record.failsFirst e.leg k) :
    lk.policyChanges e old new = (lk.reverify e).1.setReason (.disc k) := by
  rw [Link.policyChanges_held h plan, if_neg wants, Link.reverify_some.2 first]
  exact if_neg (by rw [strict]; decide)

theorem RowDelta.case_new {d : RowDelta} {leg : Fin 2} (h : d.case leg ∈ [RowCase.split, .policy]) :
    ∃ r, d.new = .valid r ∧ r.enable = true := by
  unfold RowDelta.case at h
  cases hn : d.new with
  | absent | invalid => simp only [hn] at h; exact absurd h (by simp)
  | valid r =>
    refine ⟨r, rfl, ?_⟩
    simp only [hn] at h
    by_cases he : r.enable = true
    · exact he
    · rw [if_pos he] at h
      split at h
      · exact absurd h (by decide)
      · split at h <;> exact absurd h (by decide)

/-- A change of policy, with the retry limit of the event's row (R31, R33). -/
theorem Link.reconcile_policy {e : Env} {d : RowDelta} {leg : Fin 2} (case : d.case leg = .policy) {o p : LegPlan}
    (ho : d.old.leg leg = some o) (hp : d.new.leg leg = some p) (lk : Link) :
    (lk.reconcile e d leg).reconcileEnd e d leg = { lk.policyChanges e (some o.kind) (some p.kind) with
      record := { (lk.policyChanges e (some o.kind) (some p.kind)).record with
        retries := min (lk.policyChanges e (some o.kind) (some p.kind)).record.retries p.retryLimit } } := by
  have first : lk.reconcile e d leg = lk.policyChanges e (some o.kind) (some p.kind) := by
    unfold Link.reconcile
    rw [case]
    dsimp only
    rw [ho, hp]
    rfl
  obtain ⟨n, h, _, limit⟩ := Link.reconcileEnd_plain (e := e) (by rw [case]; decide) (lk.reconcile e d leg)
  rw [h, limit p hp, first]

/-- Settles O25. -/
theorem policyAndSplitChangesReconcile : Obligations.PolicyAndSplitChangesReconcile := by
  constructor
  · intro s l d rest hi hrow
    obtain ⟨t, exec, only, link⟩ := rowChange_takes hi
    obtain ⟨usable, _, present, leg⟩ := s.env_row l hrow
    have same : (s.env l).present = d.present (legOf l) := present
    rw [show s.uptime = (s.env l).uptime from rfl]
    generalize s.env l = e at link usable same leg ⊢
    obtain ⟨lk, hlk⟩ : ∃ lk : Link, lk = { s.link l with inbox := rest } := ⟨_, rfl⟩
    have record : lk.record = (s.link l).record := by rw [hlk]
    have log : lk.toLog = (s.link l).toLog := by rw [hlk]
    have gate : lk.gate = (s.link l).gate := by rw [hlk]
    have timers : lk.timers = (s.link l).timers := by rw [hlk]
    rw [← hlk] at link
    rw [← record, ← log, ← gate, ← timers]
    refine ⟨t, exec, only, fun case => ?_, fun o p case ho hp => ?_⟩
    · obtain ⟨r, hnew, on⟩ := RowDelta.case_new (d := d) (leg := legOf l) (by rw [case]; decide)
      have changed : d.splitChanged = true := by
        rw [RowDelta.case_valid hnew, if_neg (by rw [on]; simp)] at case
        by_contra x
        rw [if_neg x] at case
        split at case
        · exact absurd case (by decide)
        · split at case
          · exact absurd case (by decide)
          · split at case <;> exact absurd case (by decide)
      have fitted := Link.reconcileEnd_fitted (Link.reconcile_fitted changed (by rw [hnew]; exact nofun) e lk (legOf l))
      rw [← link] at fitted
      obtain ⟨map, deskew, lmis⟩ := fitted.blank
      refine ⟨map, deskew, lmis, ?_⟩
      obtain ⟨n, h, le⟩ := Link.reconcile_split (e := e) case lk
      obtain ⟨admin, start, absent⟩ := Link.splitStart_spec (e := e) (d := d) (leg := legOf l)
        (usable.trans (by rw [hnew]; exact on)) lk
      rw [link, h]
      refine ⟨admin, fun up lanes free => ?_, fun up none => absent up (by rw [none]; simp)⟩
      obtain ⟨state, prev, retries, reason, gate, bye⟩ := start up ⟨lanes, same ▸ lanes⟩ free
      exact ⟨state, prev, Nat.le_zero.1 (retries ▸ le), reason, gate, bye⟩
    · obtain rfl := leg p hp
      rw [link, Link.reconcile_policy case ho hp]
      have wants : e.leg.kind ≠ .none → some e.leg.kind ≠ some ExpectKind.none := fun h x => h (Option.some.inj x)
      refine ⟨fun hstate => ?_, fun hstate => ?_, fun hstate => ⟨fun kind => ?_, fun kind => ⟨fun passes => ?_,
        fun k fails => ?_, fun k first => ?_⟩⟩, fun hstate free plan => ⟨fun passes => ?_, fun k kind strict first => ?_⟩,
        fun hstate => ?_⟩
      · rw [Link.policyChanges_running hstate]
        have talks : lk.record.state.conversing = true := by
          simp only [List.mem_cons, List.not_mem_nil, or_false] at hstate
          rcases hstate with h | h | h | h <;> rw [h] <;> rfl
        obtain ⟨k, bye⟩ := Link.restart_restarted (e := e) (lk := lk) (by
          simp only [List.mem_cons, List.not_mem_nil, or_false] at hstate ⊢
          tauto)
        exact ⟨k.state, k.prev, by rw [k.retries, Nat.zero_min], k.reason, bye talks⟩
      · rw [Link.policyChanges_still hstate]
      · obtain ⟨k, bye⟩ := Link.restart_restarted (e := e) (lk := lk) (by rw [hstate]; decide)
        rw [Link.policyChanges_up hstate, if_pos (by rw [kind])]
        exact ⟨k.state, k.reason, k.gate, bye (by rw [hstate]; rfl)⟩
      · rw [Link.policyChanges_up hstate, if_neg (wants kind), Link.reverify_passes passes]
        exact ⟨rfl, rfl⟩
      · obtain ⟨x, mem, spec⟩ := lk.reverify_logs e k fails
        exact ⟨x, by rw [← Link.policyChanges_toLog hstate (some o.kind) (wants kind)] at mem; exact mem, spec⟩
      · exact Link.policyChanges_fails hstate (some o.kind) (wants kind) first
      · obtain ⟨x, held, h⟩ := Link.policyChanges_frees (e := e) hstate free plan (some o.kind) (new := some e.leg.kind)
          (passes.imp_left fun h => by rw [h])
        have k := x.restartMarks_restarted e
        rw [h]
        exact ⟨k.state, k.prev.trans held, k.exhausted held, by rw [k.retries, Nat.zero_min], k.reason⟩
      · obtain ⟨x, mem, spec, _⟩ := lk.reverify_logs e k first.fails
        rw [Link.policyChanges_holds hstate plan (some o.kind) (wants kind) strict first]
        exact ⟨(lk.reverify_checked e).kept.1.trans hstate, rfl, x, mem, spec⟩
      · have listens : lk.policyChanges e (some o.kind) (some e.leg.kind) =
            lk.listenPolicy (some o.kind) (some e.leg.kind) := by
          unfold Link.policyChanges
          rw [hstate]
        obtain ⟨record, spec⟩ := lk.listenPolicy_spec o.kind e.leg.kind
        rw [listens]
        exact ⟨by rw [record], spec⟩
  · intro s l d rest hi hsplit there
    obtain ⟨t, exec, only, link⟩ := rowChange_takes hi
    have changed : d.splitChanged = true := decide_eq_true hsplit
    have fitted := Link.reconcileEnd_fitted (Link.reconcile_fitted changed there (s.env l)
      { s.link l with inbox := rest } (legOf l))
    rw [← link] at fitted
    obtain ⟨map, deskew, lmis⟩ := fitted.blank
    refine ⟨t, exec, only, map, deskew, lmis, fun one whole => ?_⟩
    have no : ¬((s.env l).present = true ∧ d.present (legOf l) = true) := by
      rintro ⟨eff, new⟩
      rw [one] at new
      obtain h | h := whole
      · rw [RowDelta.present, h] at new
        exact absurd new (by decide)
      · have eff : decide (legWidth (s.splitOf (portOf l)) (legOf l) ≠ 0) = true := eff
        rw [h, one] at eff
        exact absurd eff (by decide)
    obtain ⟨bye, tx, sending⟩ := fitted.silent no
    refine ⟨bye, tx, sending, fun case => ?_⟩
    obtain ⟨n, h, _⟩ := Link.reconcile_split (e := s.env l) case { s.link l with inbox := rest }
    rw [link, h]
    dsimp only
    unfold Link.splitStart
    rw [if_neg no]
    split
    · exact ((Link.stop _ _ _).fitWidth_kept _ d _).2.2.2.1.trans (Link.stop_state _ _ _)
    · exact ((Link.stop _ _ _).fitWidth_kept _ d _).2.2.2.1.trans (Link.stop_state _ _ _)

end Sys2Proof.Machine
end


section
/-! PROOFS. The take: the choice of a pending entry, and the checks of the slot that is read. -/

namespace Sys2Proof.Machine

-- One declaration at a time: the threads of a parallel elaboration exceed the memory of the check.
set_option Elab.async false

/-! ## The choice of a take (R150, R152) -/

/-- Of two entries at most one goes before the other. -/
theorem PostEntry.before_asymm {p q : PostEntry} (h : p.before q = true) : q.before p = false := by
  simp only [PostEntry.before, markLower, earlier, Bool.or_eq_true, Bool.and_eq_true, decide_eq_true_eq] at h
  simp only [PostEntry.before, markLower, earlier, Bool.or_eq_false_iff, Bool.and_eq_false_iff, decide_eq_false_iff_not]
  obtain hlt | ⟨he, hne, hm⟩ := h
  · exact ⟨by omega, .inl (by omega)⟩
  · refine ⟨by omega, .inr ?_⟩
    rintro ⟨_, hm'⟩
    have : p.mark.toNat ≠ q.mark.toNat := fun h => hne (BitVec.eq_of_toNat_eq h)
    bv_omega

theorem bestPost_mem {ps : List PostEntry} {p : PostEntry} (h : bestPost ps = some p) : p ∈ ps := by
  induction ps generalizing p with
  | nil => exact absurd h nofun
  | cons x xs ih =>
    unfold bestPost at h
    split at h
    · exact Option.some.inj h ▸ List.mem_cons_self
    · next q hq =>
      split at h
      · exact Option.some.inj h ▸ List.mem_cons_of_mem x (ih hq)
      · exact Option.some.inj h ▸ List.mem_cons_self

theorem bestPost_none {ps : List PostEntry} : bestPost ps = none ↔ ps = [] := by
  cases ps with
  | nil => exact iff_of_true rfl rfl
  | cons x xs =>
    refine iff_of_false (fun h => ?_) (List.cons_ne_nil x xs)
    unfold bestPost at h
    split at h
    · exact nomatch h
    · split at h <;> exact nomatch h

/-- No pending entry has a higher priority than the one chosen. -/
theorem bestPost_prio {ps : List PostEntry} {p : PostEntry} (h : bestPost ps = some p) : ∀ q ∈ ps, q.prio ≤ p.prio := by
  induction ps generalizing p with
  | nil => exact fun _ hq => absurd hq List.not_mem_nil
  | cons x xs ih =>
    unfold bestPost at h
    split at h
    · next hn =>
      obtain rfl := bestPost_none.1 hn
      obtain rfl := Option.some.inj h
      intro q hq
      rw [List.mem_singleton.1 hq]
    · next b hb =>
      split at h
      · next before =>
        obtain rfl := Option.some.inj h
        refine List.forall_mem_cons.2 ⟨?_, ih hb⟩
        simp only [PostEntry.before, Bool.or_eq_true, Bool.and_eq_true, decide_eq_true_eq] at before
        omega
      · next before =>
        obtain rfl := Option.some.inj h
        refine List.forall_mem_cons.2 ⟨le_rfl, fun q hq => (ih hb q hq).trans ?_⟩
        simp only [PostEntry.before, Bool.or_eq_true, decide_eq_true_eq, not_or] at before
        omega

/-- An entry that goes before every other is the one chosen. -/
theorem bestPost_first {ps : List PostEntry} {r : PostEntry} (hr : r ∈ ps) (h : ∀ q ∈ ps, q ≠ r → r.before q = true) :
    bestPost ps = some r := by
  induction ps with
  | nil => exact absurd hr List.not_mem_nil
  | cons x xs ih =>
    unfold bestPost
    by_cases hx : x = r
    · subst hx
      split
      · rfl
      · next b hb =>
        by_cases hbx : b = x
        · subst hbx
          split <;> rfl
        · exact if_neg (by rw [PostEntry.before_asymm (h b (List.mem_cons_of_mem x (bestPost_mem hb)) hbx)]; simp)
    · have there : r ∈ xs := (List.mem_cons.1 hr).resolve_left fun e => hx e.symm
      rw [ih there fun q hq => h q (List.mem_cons_of_mem x hq)]
      exact if_pos (h x List.mem_cons_self hx)

/-- Settles O26. -/
theorem takeChoosesHighestThenOldest : Obligations.TakeChoosesHighestThenOldest := by
  intro s
  have takes : exec .take s = .next s.takeOne := rfl
  rw [takes]
  constructor
  · intro h
    obtain e | ⟨p, hp, running, room, _⟩ := s.takeOne_cases
    · rw [e]
    · obtain idle | full | empty := h
      · exact absurd running idle
      · omega
      · rw [empty] at hp
        exact absurd hp nofun
  · intro running room there
    cases hp : bestPost s.posted with
    | none => exact absurd (bestPost_none.1 hp) there
    | some p =>
      refine ⟨p, bestPost_mem hp, bestPost_prio hp, fun r hr first => ?_, ?_⟩
      · refine Option.some.inj ((bestPost_first hr fun q hq hne => ?_).symm.trans hp)
        simp only [PostEntry.before, markLower, earlier, Bool.or_eq_true, Bool.and_eq_true, decide_eq_true_eq]
        refine (first q hq hne).imp_right fun ⟨he, pos, lt⟩ => ⟨he.symm, fun e => ?_, lt⟩
        rw [e, BitVec.sub_self] at pos
        exact absurd pos (by decide)
      · unfold State.takeOne
        rw [hp]
        exact congrArg _ (if_pos ⟨running, room⟩)

/-! ## The checks of a slot (R153, R161) -/

theorem finOf_some {n k : Nat} {i : Fin n} : finOf n k = some i ↔ i.val = k := by
  unfold finOf
  split
  · next h => simp only [Option.some.injEq, Fin.ext_iff]; exact eq_comm
  · next h => exact iff_of_false nofun fun e => h (e ▸ i.isLt)

theorem maskAt_some {bs : List Byte} {m : Addr} (h : maskAt bs = some m) : m ≠ 0 := by
  unfold maskAt at h
  split at h
  · exact nomatch h
  · next hne => exact Option.some.inj h ▸ hne

theorem locateAt_some {bs : List Byte} {o : Order} (h : locateAt bs = some o) :
    ∃ p : LocatePat, o = .locate p ∧ p.chassis ≠ some 0 := by
  simp only [locateAt, Option.bind_eq_bind, Option.bind_eq_some_iff] at h
  obtain ⟨c, hc, sl, _, p, _, l, _, h⟩ := h
  split at h
  · exact nomatch h
  · next hne =>
    refine ⟨_, (Option.some.inj h).symm, fun e => ?_⟩
    dsimp only at e
    rw [e] at hc
    unfold locateField at hc
    split at hc
    · exact nomatch hc
    · split at hc
      · next hlt =>
        have := congrArg BitVec.toNat (Option.some.inj (Option.some.inj hc))
        rw [BitVec.toNat_ofNat, Nat.mod_eq_of_lt hlt] at this
        exact hne this
      · exact nomatch hc

theorem watchAt_some {bs : List Byte} {o : Order} (h : watchAt bs = some o) : ∃ m k base count,
    o = .watch m k base count ∧ m ≠ 0 ∧ (k.state || k.discrepancy || k.verdict) = true ∧ base.toNat % 16 = 0 ∧
      1 ≤ count ∧ count ≤ 1024 := by
  simp only [watchAt, Option.bind_eq_bind, Option.bind_eq_some_iff] at h
  obtain ⟨m, hm, h⟩ := h
  split at h
  · exact nomatch h
  · next hno =>
    simp only [not_or, not_not, not_lt] at hno
    obtain ⟨kinds, base, count, bound⟩ := hno
    refine ⟨_, _, _, _, (Option.some.inj h).symm, maskAt_some hm, ?_, ?_, Nat.one_le_iff_ne_zero.2 count, bound⟩
    · simp only [Bool.or_eq_true, beq_iff_eq]
      omega
    · unfold addrAt
      rw [BitVec.toNat_ofNat]
      omega

theorem awaitAt_some {bs : List Byte} {o : Order} (h : awaitAt bs = some o) : ∃ m st tmo any,
    o = .await m st tmo any ∧ m ≠ 0 ∧ st ≠ 0 ∧ 1 ≤ tmo ∧ tmo ≤ 65535 := by
  simp only [awaitAt, Option.bind_eq_bind, Option.bind_eq_some_iff] at h
  obtain ⟨m, hm, h⟩ := h
  split at h
  · exact nomatch h
  · next hst =>
    have := field_lt bs 26 2
    exact ⟨_, _, _, _, (Option.some.inj h).symm, maskAt_some hm, hst, le_max_right _ _, by omega⟩

theorem selfCheckAt_some {bs : List Byte} {o : Order} (h : selfCheckAt bs = some o) : ∃ p u t,
    o = .selfCheck p u t ∧ p.val = field bs 16 1 ∧ 1 ≤ u ∧ u ≤ 16384 ∧ t ≤ 480 := by
  simp only [selfCheckAt, Option.bind_eq_bind, Option.bind_eq_some_iff] at h
  obtain ⟨p, hp, h⟩ := h
  split at h
  · exact nomatch h
  · next hno =>
    simp only [not_or, not_lt] at hno
    obtain ⟨units, most, threshold⟩ := hno
    exact ⟨_, _, _, (Option.some.inj h).symm, finOf_some.1 hp, Nat.one_le_iff_ne_zero.2 units, most, threshold⟩

theorem State.adoptAt_some {s : State} {bs : List Byte} {o : Order} (h : s.adoptAt bs = some o) : ∃ base,
    o = .adoptPlan base ∧ base.toNat % 64 = 0 ∧ s.inWindow base.toNat 2048 = true := by
  unfold State.adoptAt at h
  dsimp only at h
  split at h
  · next hok => exact ⟨_, (Option.some.inj h).symm, hok⟩
  · exact nomatch h

/-- The parameters of an order lie in the ranges of its kind (R161). -/
def State.orderInRange (s : State) (bs : List Byte) : Order → Prop
  | .adoptPlan base => base.toNat % 64 = 0 ∧ s.inWindow base.toNat 2048 = true
  | .refresh _ => field bs 4 1 = 2
  | .bringUp m => m ≠ 0
  | .takeDown m => m ≠ 0
  | .requalify l => l.val = field bs 16 1
  | .selfCheck p u t => p.val = field bs 16 1 ∧ 1 ≤ u ∧ u ≤ 16384 ∧ t ≤ 480
  | .locate p => p.chassis ≠ some 0
  | .watch m k base count => m ≠ 0 ∧ (k.state || k.discrepancy || k.verdict) = true ∧ base.toNat % 16 = 0 ∧ 1 ≤ count ∧
      count ≤ 1024
  | .await m st tmo _ => m ≠ 0 ∧ st ≠ 0 ∧ 1 ≤ tmo ∧ tmo ≤ 65535
  | .fence _ => field bs 4 1 = 10

/-- An order that a slot gives has its parameters in range (R153, R161). -/
theorem State.orderAt_inRange {s : State} {bs : List Byte} {o : Order} (h : s.orderAt bs = some o) :
    s.orderInRange bs o := by
  unfold State.orderAt at h
  split at h
  · obtain ⟨base, rfl, range⟩ := State.adoptAt_some h
    exact range
  · next kind =>
    obtain ⟨_, _, rfl⟩ := Option.map_eq_some_iff.1 h
    exact kind
  · obtain ⟨_, mask, rfl⟩ := Option.map_eq_some_iff.1 h
    exact maskAt_some mask
  · obtain ⟨_, mask, rfl⟩ := Option.map_eq_some_iff.1 h
    exact maskAt_some mask
  · obtain ⟨_, link, rfl⟩ := Option.map_eq_some_iff.1 h
    exact finOf_some.1 link
  · obtain ⟨_, _, _, rfl, range⟩ := selfCheckAt_some h
    exact range
  · obtain ⟨_, rfl, chassis⟩ := locateAt_some h
    exact chassis
  · obtain ⟨_, _, _, _, rfl, range⟩ := watchAt_some h
    exact range
  · obtain ⟨_, _, _, _, rfl, range⟩ := awaitAt_some h
    exact range
  · next kind =>
    obtain rfl := Option.some.inj h
    exact kind
  · exact nomatch h

/-- The fate of a slot that is POSTED, by its order (R153). -/
theorem State.fateOf_posted {s : State} {bs : List Byte} (posted : field bs 0 1 = 1) (prio : Nat) :
    (s.orderAt bs = none ∧ s.fateOf bs prio = .refuse .badOrder) ∨
      ∃ o, s.orderAt bs = some o ∧ s.fateOf bs prio = (if field bs 5 1 ≠ prio then .refuse .badOrder
        else if s.destinationBad o then .refuse .badRegion else .run o) := by
  unfold State.fateOf
  rw [if_neg (not_not.2 posted)]
  cases ho : s.orderAt bs with
  | none => exact .inl ⟨rfl, rfl⟩
  | some o => exact .inr ⟨o, rfl, rfl⟩

theorem State.fateOf_drop {s : State} {bs : List Byte} {prio : Nat} : s.fateOf bs prio = .drop ↔ field bs 0 1 ≠ 1 := by
  refine ⟨fun h posted => ?_, fun h => if_pos h⟩
  obtain ⟨_, e⟩ | ⟨o, _, e⟩ := s.fateOf_posted posted prio <;> rw [e] at h
  · exact nomatch h
  · split at h
    · exact nomatch h
    · split at h <;> exact nomatch h

/-- An order that runs has passed every check (R153). -/
theorem State.fateOf_run {s : State} {bs : List Byte} {prio : Nat} {o : Order} (h : s.fateOf bs prio = .run o) :
    s.orderAt bs = some o ∧ field bs 5 1 = prio ∧ s.destinationBad o = false := by
  have posted : field bs 0 1 = 1 := Classical.byContradiction fun x => by
    rw [State.fateOf_drop.2 x] at h
    exact nomatch h
  obtain ⟨_, e⟩ | ⟨o', ho, e⟩ := s.fateOf_posted posted prio <;> rw [e] at h
  · exact nomatch h
  · split at h
    · exact nomatch h
    · next hp =>
      split at h
      · exact nomatch h
      · next hd =>
        obtain rfl := Fate.run.inj h
        exact ⟨ho, not_not.1 hp, Bool.not_eq_true _ ▸ hd⟩

/-- Settles O27. -/
theorem takenOrdersAreInRange : Obligations.TakenOrdersAreInRange := by
  intro s bs prio
  refine ⟨State.fateOf_drop, fun posted => ?_, fun o h => ?_, fun m k base count h => ?_,
    fun m k base count ho posted hp out => ?_, fun o h => ?_⟩
  · obtain ⟨ho, e⟩ | ⟨o, ho, e⟩ := s.fateOf_posted posted prio <;> rw [ho, e]
    · exact iff_of_true (.inl rfl) rfl
    · constructor
      · rintro (no | hp)
        · exact nomatch no
        · exact if_pos hp
      · intro refused
        by_contra hp
        simp only [reduceCtorEq, false_or, not_not] at hp
        rw [if_neg (not_not.2 hp)] at refused
        split at refused <;> exact nomatch refused
  · obtain ⟨ho, hp, _⟩ := State.fateOf_run h
    exact ⟨ho, hp⟩
  · obtain ⟨ho, _, hd⟩ := State.fateOf_run h
    obtain ⟨mask, kinds, aligned, least, most⟩ := State.orderAt_inRange ho
    exact ⟨mask, kinds, aligned, least, most, by simpa [State.destinationBad] using hd⟩
  · obtain ⟨no, _⟩ | ⟨o, ho', e⟩ := s.fateOf_posted posted prio
    · rw [ho] at no
      exact nomatch no
    · obtain rfl := Option.some.inj (ho.symm.trans ho')
      rw [e, if_neg (not_not.2 hp)]
      exact if_pos (by simp only [State.destinationBad, out, Bool.not_false])
  · have range := State.orderAt_inRange h
    cases o with
    | watch => exact range.1
    | adoptPlan | refresh | bringUp | takeDown | requalify | selfCheck | locate | await | fence => exact range

end Sys2Proof.Machine
end


section
/-! PROOFS. SLOT_READ_DONE of a slot whose order is refused or dropped, and of a read that the memory refuses. -/

namespace Sys2Proof.Machine

-- One declaration at a time: the threads of a parallel elaboration exceed the memory of the check.
set_option Elab.async false

/-! ## The writes of a slot -/

theorem State.slotAddr_congr {s t : State} (h : t.anchor = s.anchor) (slot : Nat) : t.slotAddr slot = s.slotAddr slot := by
  unfold State.slotAddr
  rw [h]

theorem State.doneEntry_congr {s t : State} (h : t.anchor = s.anchor) (slot : Nat) (ref : Option Word) (notify : Bool)
    (st : Status) : t.doneEntry slot ref notify st = s.doneEntry slot ref notify st := by
  unfold State.doneEntry
  rw [State.slotAddr_congr h]

theorem State.resultEntry_congr {s t : State} (h : t.anchor = s.anchor) (slot : Nat) (bs : List Byte) :
    t.resultEntry slot bs = s.resultEntry slot bs := by
  unfold State.resultEntry
  rw [State.slotAddr_congr h]

theorem State.fenceEntries_congr {s t : State} (h : t.anchor = s.anchor) (gone : Word) :
    t.fenceEntries gone = s.fenceEntries gone := by
  funext c
  unfold State.fenceEntries
  simp only [State.doneEntry_congr h, State.resultEntry_congr h]

/-- The DONE word of a status (R198). -/
theorem slotWord_done (st : Status) : slotWord 3 st.code = [3, BitVec.ofNat 8 st.code, 0, 0] := by
  cases st <;> rfl

/-! ## The return of a slot read (R153) -/

/-- The read of a context in READING returns to it. -/
theorem slotRead_returns {s : State} (h : s.seqsOk) {c : Ctx} (hc : c ∈ s.contexts) (reading : c.phase = .reading false) :
    (∀ bs, exec (.slotReadDone c.seq (some bs)) s = .next (s.slotData c bs.toList)) ∧
      exec (.slotReadDone c.seq none) s = .next (s.slotFault c) := by
  have found := State.ctx?_mem h hc
  obtain ⟨slot, prio, seq, phase⟩ := c
  obtain rfl : phase = .reading false := reading
  have returns : ∀ data, exec (.slotReadDone seq data) s = .next (match s.ctx? seq with
    | some ⟨slot, prio, q, .reading false⟩ =>
      match data with
      | some bs => s.slotData ⟨slot, prio, q, .reading false⟩ bs.toList
      | none => s.slotFault ⟨slot, prio, q, .reading false⟩
    | _ => s) := fun _ => rfl
  constructor
  · intro bs
    rw [returns, found]
  · rw [returns, found]

/-- `u` is `s` with TAKEN queued and counted (R153, R193). -/
structure Taken (c : Ctx) (s u : State) : Prop where
  rest : { u with writeQueue := s.writeQueue, statusDue := s.statusDue, spacing := s.spacing,
                  ordersTaken := s.ordersTaken } = s
  count : u.ordersTaken = s.ordersTaken + 1
  queue : u.writeQueue = s.writeQueue ++ [s.takenEntry c] ∨
    u.writeQueue = s.writeQueue ++ [s.takenEntry c, ⟨.status .plain, []⟩]

theorem State.taken (s : State) (c : Ctx) : Taken c s (s.pushEntry (s.takenEntry c)).countTaken := by
  have only := State.statusChange_only
    { s.pushEntry (s.takenEntry c) with ordersTaken := s.ordersTaken + 1 }
  refine ⟨(congrArg (fun x : State => { x with writeQueue := s.writeQueue, ordersTaken := s.ordersTaken }) only.rest :),
    (congrArg State.ordersTaken only.rest :), only.queue.imp_right fun h => ?_⟩
  rw [List.append_cons]
  exact h

theorem Taken.contexts {c : Ctx} {s u : State} (h : Taken c s u) : u.contexts = s.contexts :=
  (congrArg State.contexts h.rest :)

theorem Taken.anchor {c : Ctx} {s u : State} (h : Taken c s u) : u.anchor = s.anchor := (congrArg State.anchor h.rest :)

theorem Taken.filter {c : Ctx} {s u : State} (h : Taken c s u) : u.writeQueue.filter (fun q => !q.kind.isStatus) =
    s.writeQueue.filter (fun q => !q.kind.isStatus) ++ [s.takenEntry c] := by
  obtain e | e := h.queue <;> rw [e, List.filter_append] <;> rfl

theorem Taken.mem {c : Ctx} {s u : State} (h : Taken c s u) : s.takenEntry c ∈ u.writeQueue := by
  obtain e | e := h.queue <;> rw [e] <;> simp

/-- A refused take (R153, cases 2 and 3). -/
theorem State.refuseTake_refused (s : State) (c : Ctx) (st : Status) (standing : Bool) :
    (s.refuseTake c st standing).writeQueue.filter (fun q => !q.kind.isStatus) =
      s.writeQueue.filter (fun q => !q.kind.isStatus) ++
        [s.takenEntry c, s.doneEntry c.slot (some c.seq) false st] ∧
    (s.refuseTake c st standing).contexts = (s.contexts.map fun d =>
      if d.seq = c.seq then { d with phase := .closing st standing } else d) ∧
    { s.refuseTake c st standing with
      writeQueue := s.writeQueue, contexts := s.contexts, statusDue := s.statusDue, spacing := s.spacing,
      ordersTaken := s.ordersTaken } = s ∧
    (s.refuseTake c st standing).ordersTaken = s.ordersTaken + 1 := by
  have taken := s.taken c
  unfold State.refuseTake
  generalize (s.pushEntry (s.takenEntry c)).countTaken = u at taken ⊢
  refine ⟨?_, ?_, ?_, taken.count⟩
  · rw [State.setPhase_writeQueue, State.pushEntry_writeQueue, List.filter_append, taken.filter,
      State.doneEntry_congr taken.anchor, List.append_assoc]
    rfl
  · rw [State.setPhase_contexts]
    change List.map _ u.contexts = _
    rw [taken.contexts]
  · exact (congrArg (fun x : State => { x with contexts := s.contexts }) taken.rest :)

/-! ## Dropped takes (R153, R179) -/

/-- A part that does not work, or that has an order or a write left, does not leave QUIESCING. -/
theorem State.checkQuiesce_waits {s : State} (h : s.part ≠ .quiescing ∨ s.contexts ≠ [] ∨ s.writeQueue ≠ []) :
    s.checkQuiesce = s := by
  unfold State.checkQuiesce
  refine if_neg fun ⟨part, contexts, queue⟩ => ?_
  obtain h | h | h := h
  · exact h part
  · exact h contexts
  · exact h queue

/-- `u` is `s` with the context of a dropped take free, and the drop counted. -/
def State.dropped (s : State) (q : Word) : State := { s.freeCtx q with droppedPosts := s.droppedPosts + 1 }

theorem State.dropTake_eq (s : State) (c : Ctx) :
    s.dropTake c = (((s.dropped c.seq).statusChange).releaseFences c.seq).checkQuiesce := rfl

theorem State.dropped_seqsOk {s : State} (h : s.seqsOk) (q : Word) : (s.dropped q).seqsOk :=
  h.sublist (List.filter_sublist.map _)

/-- A take that leaves nothing waiting for it changes the FENCEs alone, and the writes that they queue. -/
theorem State.dropTake_released {s : State} (h : s.seqsOk) (c : Ctx)
    (left : s.part ≠ .quiescing ∨ s.writeQueue ≠ [] ∨ ∃ d ∈ s.contexts, d.seq ≠ c.seq) : ∃ u,
    StatusOnly (s.dropped c.seq) u ∧ (s.accepted = true → s.part ≠ .idle → u.statusDue = true) ∧
    s.dropTake c = { u with
      contexts := (s.dropped c.seq).contexts.map (Ctx.released c.seq),
      writeQueue := u.writeQueue ++ (s.dropped c.seq).contexts.flatMap (s.fenceEntries c.seq) } := by
  have only := (s.dropped c.seq).statusChange_only
  have due : s.accepted = true → s.part ≠ .idle → (s.dropped c.seq).statusChange.statusDue = true := fun a p =>
    (s.dropped c.seq).statusChange_sets a p
  rw [State.dropTake_eq]
  generalize (s.dropped c.seq).statusChange = u at only due ⊢
  have contexts : u.contexts = (s.dropped c.seq).contexts := (congrArg State.contexts only.rest :)
  have anchor : u.anchor = s.anchor := (congrArg State.anchor only.rest :)
  have released := u.releaseFences_eq (by unfold State.seqsOk; rw [contexts]; exact State.dropped_seqsOk h c.seq) c.seq
  rw [contexts, State.fenceEntries_congr anchor] at released
  rw [released]
  refine ⟨u, only, due, State.checkQuiesce_waits ?_⟩
  obtain part | queue | ⟨d, hd, hne⟩ := left
  · exact .inl (fun e => part (only.part.symm.trans e))
  · refine .inr (.inr fun e => queue ?_)
    have kept := only.queueKept
    rw [(List.append_eq_nil_iff.1 e).1] at kept
    exact List.prefix_nil.1 kept
  · refine .inr (.inl fun e => ?_)
    have there : d ∈ (s.dropped c.seq).contexts := List.mem_filter.2 ⟨hd, by simpa using hne⟩
    rw [List.map_eq_nil_iff.1 e] at there
    exact absurd there List.not_mem_nil

theorem State.dropped_no_fences {s : State} (q : Word)
    (none : ∀ d ∈ s.contexts, ∀ o left n, d.phase ≠ .active o (.fencing left n)) :
    (s.dropped q).contexts.map (Ctx.released q) = (s.dropped q).contexts ∧
      (s.dropped q).contexts.flatMap (s.fenceEntries q) = [] := by
  have there : ∀ d ∈ (s.dropped q).contexts, ∀ o left n, d.phase ≠ .active o (.fencing left n) := fun d hd =>
    none d (List.mem_of_mem_filter hd)
  constructor
  · conv_rhs => rw [← List.map_id (s.dropped q).contexts]
    exact List.map_congr_left fun d hd => Ctx.released_other (there d hd)
  · rw [List.flatMap_eq_nil_iff]
    intro d hd
    unfold State.fenceEntries
    split
    · next e => exact absurd e (there d hd _ _ _)
    · rfl

theorem fateOf_dropped {s : State} {bs : Vector Byte 128} (h : bs[0] ≠ 1) (prio : Nat) : s.fateOf bs.toList prio = .drop := by
  refine State.fateOf_drop.2 fun e => h ?_
  rw [field_byte bs 0 (by decide)] at e
  exact BitVec.eq_of_toNat_eq e

theorem State.slotData_drop {s : State} {c : Ctx} {bs : List Byte} (h : s.fateOf bs c.prio = .drop) :
    s.slotData c bs = s.dropTake c := by
  unfold State.slotData
  rw [h]

theorem State.slotData_refuse {s : State} {c : Ctx} {bs : List Byte} {st : Status}
    (h : s.fateOf bs c.prio = .refuse st) : s.slotData c bs = s.refuseTake c st (slotStanding bs) := by
  unfold State.slotData
  rw [h]

theorem State.slotData_run {s : State} {c : Ctx} {bs : List Byte} {o : Order} (h : s.fateOf bs c.prio = .run o) :
    s.slotData c bs = s.activate c o := by
  unfold State.slotData
  rw [h]

/-- The last order of a part in QUIESCING is dropped (R185). -/
theorem State.dropTake_last {s : State} {c : Ctx} (one : s.contexts = [c]) :
    s.dropTake c = ({ s with droppedPosts := s.droppedPosts + 1, contexts := [] } : State).statusChange.checkQuiesce := by
  have gone : s.dropped c.seq = { s with droppedPosts := s.droppedPosts + 1, contexts := [] } := by
    unfold State.dropped State.freeCtx
    rw [one]
    simp
  rw [State.dropTake_eq, gone]
  have only := State.statusChange_only { s with droppedPosts := s.droppedPosts + 1, contexts := [] }
  generalize State.statusChange _ = u at only ⊢
  have contexts : u.contexts = [] := (congrArg State.contexts only.rest :)
  unfold State.releaseFences
  rw [contexts]
  rfl

/-- Settles O28. -/
theorem refusedTakesEndAtOnce : Obligations.RefusedTakesEndAtOnce := by
  refine ⟨fun s c h hc reading => ⟨fun bs st fate => ?_, fun part => ?_, fun q data no => ?_⟩,
    fun s c bs h hc reading hbs left => ?_, fun s c bs one reading hbs part unaccepted queue => ?_,
    fun s c bs one reading hbs part accepted queue writing => ?_⟩
  · refine ⟨_, (slotRead_returns h hc reading).1 bs, ?_⟩
    rw [State.slotData_refuse fate]
    have refused := s.refuseTake_refused c st (slotStanding bs.toList)
    unfold State.doneEntry at refused
    rw [slotWord_done] at refused
    exact refused
  · have works : (s.setPhase c.seq (.reading true)).part ∈ [PartState.loading, .running, .quiescing] :=
      List.mem_cons_of_mem _ part
    have fault := (s.setPhase c.seq (.reading true)).takeFault_works works (s.slotAddr c.slot) .readError .slotRead
    refine ⟨_, (slotRead_returns h hc reading).2, fault.part, fault.resume, (congrArg State.contexts fault.rest :),
      (congrArg State.links fault.rest :), (congrArg State.posted fault.rest :), (congrArg State.hostMem fault.rest :),
      fun clear => ?_⟩
    obtain ⟨addr, kind, source, multiple, _⟩ := fault.captured clear
    exact ⟨addr, kind, source, multiple⟩
  · change Host.Outcome.next _ = _
    cases found : s.ctx? q with
    | none => rfl
    | some d =>
      obtain ⟨hd, hq⟩ := State.ctx?_some found
      have other := no d hd hq
      obtain ⟨slot, prio, seq, phase⟩ := d
      cases phase with
      | reading again =>
        cases again with
        | true => rfl
        | false => exact absurd rfl other
      | active | closing => rfl
  · obtain ⟨u, only, due, e⟩ := State.dropTake_released h c left
    have contexts : u.contexts = (s.dropped c.seq).contexts := (congrArg State.contexts only.rest :)
    have stays : ∀ d ∈ s.contexts, d.seq ≠ c.seq → d ∈ (s.dropped c.seq).contexts := fun d hd hne =>
      List.mem_filter.2 ⟨hd, by simpa using hne⟩
    refine ⟨s.dropTake c, ?_, ?_⟩
    · rw [(slotRead_returns h hc reading).1 bs]
      rw [State.slotData_drop (fateOf_dropped hbs c.prio)]
    · rw [e]
      refine ⟨fun none => ?_, (congrArg State.droppedPosts only.rest :), only.queueKept.trans (List.prefix_append _ _), due,
        ?_, fun d hd hne other => ?_, fun d hd o waits n fencing => ?_, ?_⟩
      · obtain ⟨same, nothing⟩ := State.dropped_no_fences c.seq none
        rw [same, nothing, List.append_nil, ← contexts]
        exact only
      · change List.map _ (List.map _ (List.filter _ _)) = _
        rw [List.map_map, List.filter_map]
        exact List.map_congr_left fun d _ => Ctx.released_seq c.seq d
      · exact List.mem_map.2 ⟨d, stays d hd hne, Ctx.released_other other⟩
      · have hne : d.seq ≠ c.seq := fun e => by
          have same := Option.some.inj ((State.ctx?_mem h hd).symm.trans (e ▸ State.ctx?_mem h hc))
          rw [same, reading] at fencing
          exact nomatch fencing
        have there := stays d hd hne
        have mem := List.mem_map_of_mem (f := Ctx.released c.seq) there
        rw [Ctx.released_fence fencing] at mem
        split
        · next all =>
          rw [if_pos all] at mem
          have entries : ∀ x ∈ s.fenceEntries c.seq d,
              x ∈ u.writeQueue ++ (s.dropped c.seq).contexts.flatMap (s.fenceEntries c.seq) := fun x hx =>
            List.mem_append_right _ (List.mem_flatMap.2 ⟨d, there, hx⟩)
          rw [State.fenceEntries_fence fencing, if_pos all] at entries
          exact ⟨mem, entries _ List.mem_cons_self, entries _ (List.mem_cons_of_mem _ List.mem_cons_self)⟩
        · next some =>
          rw [if_neg some] at mem
          exact mem
      · exact (congrArg (fun x : State => { x with contexts := s.contexts, droppedPosts := s.droppedPosts }) only.rest :)
  · have h : s.seqsOk := by unfold State.seqsOk; rw [one]; exact List.nodup_singleton _
    rw [(slotRead_returns h (one ▸ List.mem_cons_self) reading).1 bs]
    rw [State.slotData_drop (fateOf_dropped hbs c.prio), State.dropTake_last one]
    have still : ({ s with droppedPosts := s.droppedPosts + 1, contexts := [] } : State).statusChange =
        { s with droppedPosts := s.droppedPosts + 1, contexts := [] } :=
      if_neg fun x => absurd (unaccepted.symm.trans x.1) Bool.false_ne_true
    rw [still]
    unfold State.checkQuiesce
    dsimp only
    rw [if_pos ⟨part, rfl, queue⟩, if_neg (by rw [unaccepted]; exact Bool.false_ne_true)]
    rfl
  · have h : s.seqsOk := by unfold State.seqsOk; rw [one]; exact List.nodup_singleton _
    refine ⟨s.dropTake c, ?_, ?_⟩
    · rw [(slotRead_returns h (one ▸ List.mem_cons_self) reading).1 bs]
      rw [State.slotData_drop (fateOf_dropped hbs c.prio)]
    · rw [State.dropTake_last one]
      obtain ⟨x, hx⟩ : ∃ x : State, x = { s with droppedPosts := s.droppedPosts + 1, contexts := [], statusDue := true } :=
        ⟨_, rfl⟩
      have quiet : x.statusWaiting = false := by
        unfold State.statusWaiting State.headBegun
        rw [hx]
        dsimp only
        rw [writing, queue]
        rfl
      have changed : ({ s with droppedPosts := s.droppedPosts + 1, contexts := [] } : State).statusChange =
          if s.spacing.isNone then x.queueStatus else x := by
        rw [hx]
        exact if_pos ⟨accepted, by rw [part]; decide⟩
      rw [changed]
      cases hs : s.spacing with
      | none =>
        simp only [Option.isNone_none, if_true]
        have queued : x.queueStatus = { x.pushEntry ⟨.status .plain, []⟩ with spacing := some (msec 10) } :=
          if_pos ⟨by rw [hx]; exact accepted, by rw [quiet]; exact Bool.false_ne_true⟩
        rw [queued, State.checkQuiesce_waits (.inr (.inr (List.append_ne_nil_of_right_ne_nil _ (List.cons_ne_nil _ _))))]
        rw [hx]
        refine ⟨part, ?_, ?_⟩
        · change s.writeQueue ++ _ = _
          rw [queue]
          rfl
        · rw [← hs]
          rfl
      | some n =>
        simp only [Option.isNone_some, Bool.false_eq_true, if_false]
        have idle : x.checkQuiesce = { x.pushEntry ⟨.status .idle, []⟩ with spacing := some (msec 10) } := by
          unfold State.checkQuiesce State.queueMarked
          rw [quiet, hx]
          dsimp only
          rw [if_pos ⟨part, rfl, queue⟩, if_pos accepted, if_neg Bool.false_ne_true]
        rw [idle, hx]
        refine ⟨part, ?_, ?_⟩
        · rw [if_neg nofun]
          change s.writeQueue ++ _ = _
          rw [queue]
          rfl
        · rw [← hs]
          rfl

end Sys2Proof.Machine
end


section
/-! PROOFS. SLOT_READ_DONE of an order that passes its checks: it becomes ACTIVE and hands over its work. -/

namespace Sys2Proof.Machine

-- One declaration at a time: the threads of a parallel elaboration exceed the memory of the check.
set_option Elab.async false

/-! ## What an order begins with -/

theorem State.present_congr {s t : State} (h : t.rows = s.rows) (l : LinkId) : (t.env l).present = (s.env l).present := by
  change decide (legWidth (t.rows[portOf l]).split (legOf l) ≠ 0) = decide (legWidth (s.rows[portOf l]).split (legOf l) ≠ 0)
  rw [h]

theorem State.presentLinks_congr {s t : State} (h : t.rows = s.rows) (p : PortId) : t.presentLinks p = s.presentLinks p := by
  unfold State.presentLinks
  exact List.filter_congr fun l _ => State.present_congr h l

theorem State.standingResult_congr {s t : State} (h : t.rows = s.rows) (o : Order) (p : Progress) :
    t.standingResult o p = s.standingResult o p := by
  have view : ∀ v, t.awaitView v = s.awaitView v := fun v => by
    unfold State.awaitView
    exact List.map_congr_left fun x _ => by rw [State.present_congr h]
  unfold State.standingResult
  simp only [view]

theorem State.fenceRecords_congr {s t : State} (h : t.contexts = s.contexts) (q : Word) :
    t.fenceRecords q = s.fenceRecords q := by
  unfold State.fenceRecords
  rw [h]

theorem State.beginProgress_congr {s t : State} (hr : t.rows = s.rows) (hc : t.contexts = s.contexts) (q : Word)
    (o : Order) : t.beginProgress q o = s.beginProgress q o := by
  unfold State.beginProgress
  simp only [State.presentLinks_congr hr, State.fenceRecords_congr hc]

theorem State.quiescing_congr {s t : State} (hp : t.part = s.part) (hr : t.resume = s.resume) :
    t.quiescing = s.quiescing := by
  unfold State.quiescing
  rw [hp, hr]

/-- No take is earlier than itself, so a FENCE's own phase does not count among those it awaits (R152, R179). -/
theorem State.fenceRecords_setPhase (s : State) (q : Word) (ph : Phase) :
    (s.setPhase q ph).fenceRecords q = s.fenceRecords q := by
  unfold State.fenceRecords
  rw [State.setPhase_contexts, List.filter_map, List.map_map]
  have same : ∀ d : Ctx, ((fun c : Ctx => earlier c.seq q && c.fenceable) ∘
      fun c => if c.seq = q then { c with phase := ph } else c) d = (earlier d.seq q && d.fenceable) := fun d => by
    by_cases h : d.seq = q
    · simp [earlier, h]
    · simp [h]
  have keys : ∀ d : Ctx, ((fun c : Ctx => c.seq) ∘ fun c => if c.seq = q then { c with phase := ph } else c) d = d.seq := by
    intro d
    by_cases h : d.seq = q <;> simp [h]
  rw [List.filter_congr fun d _ => same d]
  exact List.map_congr_left fun d _ => keys d

theorem Order.notify_standing {o : Order} (h : o.standing = true) : o.notify = false := by
  cases o with
  | watch | await => rfl
  | adoptPlan | refresh | bringUp | takeDown | requalify | selfCheck | locate | fence => exact Bool.noConfusion h

/-! ## The hand-over (R153, R162 to R179) -/

/-- `w` is `s` after the take of `c` has been counted and its order has begun, which leaves its context in a phase and has
queued some writes. -/
structure Handed (c : Ctx) (s w : State) (ph : Phase) (entries : List QEntry) : Prop where
  contexts : w.contexts = s.contexts.map fun d => if d.seq = c.seq then { d with phase := ph } else d
  queue : w.writeQueue = s.writeQueue ++ [s.takenEntry c] ++ entries ∨
    w.writeQueue = s.writeQueue ++ [s.takenEntry c, ⟨.status .plain, []⟩] ++ entries
  count : w.ordersTaken = s.ordersTaken + 1
  rest : { w with contexts := s.contexts, writeQueue := s.writeQueue, loadQueue := s.loadQueue, links := s.links,
                  statusDue := s.statusDue, spacing := s.spacing, ordersTaken := s.ordersTaken } = s

theorem Taken.started {c : Ctx} {s u : State} (h : Taken c s u) (ph : Phase) : Handed c s (u.setPhase c.seq ph) ph [] where
  contexts := by rw [State.setPhase_contexts, h.contexts]
  queue := by
    rw [List.append_nil, List.append_nil]
    exact h.queue
  count := h.count
  rest := (congrArg (fun x : State => { x with contexts := s.contexts, loadQueue := s.loadQueue, links := s.links }) h.rest :)

theorem Handed.anchor {c : Ctx} {s w : State} {ph : Phase} {es : List QEntry} (h : Handed c s w ph es) :
    w.anchor = s.anchor := (congrArg State.anchor h.rest :)

theorem Handed.rows {c : Ctx} {s w : State} {ph : Phase} {es : List QEntry} (h : Handed c s w ph es) :
    w.rows = s.rows := (congrArg State.rows h.rest :)

theorem Handed.seqs {c : Ctx} {s w : State} {ph : Phase} {es : List QEntry} (h : Handed c s w ph es) :
    w.contexts.map (·.seq) = s.contexts.map (·.seq) := by
  rw [h.contexts]
  exact s.setPhase_seqs c.seq ph

theorem Handed.seqsOk {c : Ctx} {s w : State} {ph : Phase} {es : List QEntry} (h : Handed c s w ph es) (hs : s.seqsOk) :
    w.seqsOk := by
  unfold State.seqsOk
  rw [h.seqs]
  exact hs

theorem Handed.own {c : Ctx} {s w : State} {ph : Phase} {es : List QEntry} (h : Handed c s w ph es)
    (hc : c ∈ s.contexts) : { c with phase := ph } ∈ w.contexts := by
  rw [h.contexts]
  exact List.mem_map.2 ⟨c, hc, if_pos rfl⟩

theorem Handed.other {c : Ctx} {s w : State} {ph : Phase} {es : List QEntry} (h : Handed c s w ph es) {d : Ctx}
    (hd : d ∈ s.contexts) (hne : d.seq ≠ c.seq) : d ∈ w.contexts := by
  rw [h.contexts]
  exact List.mem_map.2 ⟨d, hd, if_neg hne⟩

/-- The order that has begun ends at once (R155). -/
theorem Handed.ends {c : Ctx} {s w : State} {o : Order} {p : Progress} (h : Handed c s w (.active o p) []) (hs : s.seqsOk)
    (hc : c ∈ s.contexts) (st : Status) (result : List Byte) :
    Handed c s (w.endOrder c.seq st result) (.closing st o.standing)
      [s.resultEntry c.slot result, s.doneEntry c.slot (some c.seq) o.notify st] ∧
    (w.endOrder c.seq st result).links = w.links := by
  have found : w.ctx? c.seq = some ⟨c.slot, c.prio, c.seq, .active o p⟩ := State.ctx?_mem (h.seqsOk hs) (h.own hc)
  rw [w.endOrder_active found]
  refine ⟨⟨?_, ?_, h.count, h.rest⟩, rfl⟩
  · change List.map _ w.contexts = _
    rw [h.contexts, List.map_map]
    refine List.map_congr_left fun d _ => ?_
    by_cases hd : d.seq = c.seq <;> simp [hd]
  · have queue := h.queue
    rw [List.append_nil, List.append_nil] at queue
    dsimp only
    rw [State.resultEntry_congr h.anchor, State.doneEntry_congr h.anchor]
    exact queue.imp (congrArg (· ++ _)) (congrArg (· ++ _))

/-- A standing order that has begun ends at once, with its result as it stands (R158). -/
theorem Handed.stops {c : Ctx} {s w : State} {o : Order} {p : Progress} (h : Handed c s w (.active o p) []) (hs : s.seqsOk)
    (hc : c ∈ s.contexts) (standing : o.standing = true) :
    Handed c s (w.endStanding c.seq .stopped) (.closing .stopped true)
      [s.resultEntry c.slot (s.standingResult o p), s.doneEntry c.slot (some c.seq) false .stopped] ∧
    (w.endStanding c.seq .stopped).links = w.links := by
  have found : w.ctx? c.seq = some ⟨c.slot, c.prio, c.seq, .active o p⟩ := State.ctx?_mem (h.seqsOk hs) (h.own hc)
  have ends : w.endStanding c.seq .stopped = w.endOrder c.seq .stopped (s.standingResult o p) := by
    unfold State.endStanding
    rw [found]
    dsimp only
    rw [if_pos standing, State.standingResult_congr h.rows]
  have k := h.ends hs hc .stopped (s.standingResult o p)
  rwa [← ends, standing, Order.notify_standing standing] at k

/-- A load joins the queue of loads. -/
theorem Handed.loads {c : Ctx} {s w : State} {ph : Phase} {es : List QEntry} (h : Handed c s w ph es)
    (queue : List LoadReq) : Handed c s { w with loadQueue := queue } ph es :=
  ⟨h.contexts, h.queue, h.count, h.rest⟩

/-- Events handed to links leave everything else. -/
theorem Handed.sends {c : Ctx} {s w : State} {ph : Phase} {es : List QEntry} (h : Handed c s w ph es) {ls : List LinkId}
    (distinct : ls.Nodup) (ev : SeqEvent) : Handed c s (w.sendAll ls ev) ph es ∧
      ∀ l, (w.sendAll ls ev).link l =
        if l ∈ ls then { w.link l with inbox := (w.link l).inbox ++ [ev] } else w.link l := by
  obtain ⟨links, others, rest⟩ := State.sendAll_links ev ls distinct w
  generalize w.sendAll ls ev = x at links others rest ⊢
  refine ⟨⟨(congrArg State.contexts rest :).trans h.contexts, ?_, (congrArg State.ordersTaken rest :).trans h.count, ?_⟩,
    fun l => ?_⟩
  · have queue : x.writeQueue = w.writeQueue := (congrArg State.writeQueue rest :)
    rw [queue]
    exact h.queue
  · exact (congrArg (fun x : State => { x with
      contexts := s.contexts, writeQueue := s.writeQueue, loadQueue := s.loadQueue, links := s.links,
      statusDue := s.statusDue, spacing := s.spacing, ordersTaken := s.ordersTaken }) rest :).trans h.rest
  · split
    · next hl => exact links l hl
    · next hl => exact others l hl

theorem mem_maskLinks {m : Addr} {l : LinkId} : l ∈ maskLinks m ↔ m.getLsbD l.val = true := by
  unfold maskLinks
  rw [List.mem_filter]
  exact and_iff_right (mem_allBelow l)

theorem maskLinks_nodup (m : Addr) : (maskLinks m).Nodup := by
  have all : (allBelow 64).Nodup := by decide +kernel
  exact all.filter _

theorem State.mem_presentLinks {s : State} {p : PortId} {l : LinkId} :
    l ∈ s.presentLinks p ↔ portOf l = p ∧ (s.env l).present = true := by
  unfold State.presentLinks
  rw [List.mem_filter]
  refine and_congr_left fun _ => ?_
  simp only [List.mem_cons, List.not_mem_nil, or_false]
  constructor
  · rintro (rfl | rfl) <;> exact portOf_linkOf ..
  · intro h
    exact eq_linkOf h.symm

theorem State.presentLinks_nodup (s : State) (p : PortId) : (s.presentLinks p).Nodup :=
  (Scope.links_nodup .all p).filter _

/-- What the release of the FENCEs leaves of a state that has handed over an order. -/
structure Released (c : Ctx) (o : Order) (s w t : State) : Prop where
  taken : s.takenEntry c ∈ t.writeQueue
  others : ∀ d ∈ s.contexts, d.seq ≠ c.seq →
    o.standing = false ∨ (∀ f left n, d.phase ≠ .active f (.fencing left n)) → d ∈ t.contexts
  fences : o.standing = true → ∀ d ∈ s.contexts, ∀ f left n, d.phase = .active f (.fencing left n) →
    if ∀ k ∈ left, k = c.seq then { d with phase := .closing .ok f.standing } ∈ t.contexts ∧
        s.resultEntry d.slot (byte1 n) ∈ t.writeQueue ∧ s.doneEntry d.slot (some d.seq) f.notify .ok ∈ t.writeQueue
    else { d with phase := .active f (.fencing (left.filter fun k => !decide (k = c.seq)) n) } ∈ t.contexts
  queue : w.writeQueue <+: t.writeQueue
  rest : { t with contexts := w.contexts, writeQueue := w.writeQueue } = w

theorem Handed.taken {c : Ctx} {s w : State} {ph : Phase} {es : List QEntry} (h : Handed c s w ph es) :
    s.takenEntry c ∈ w.writeQueue := by
  obtain e | e := h.queue <;> rw [e] <;> simp

/-- The end of a hand-over: a standing order releases the FENCEs that wait for it (R179). -/
theorem Handed.released {c : Ctx} {s w : State} {o : Order} {ph : Phase} {es : List QEntry} (h : Handed c s w ph es)
    (hs : s.seqsOk) (hc : c ∈ s.contexts) (reading : c.phase = .reading false)
    (plain : o.standing = true → ∀ f left n, ph ≠ .active f (.fencing left n)) {t : State}
    (ht : t = if o.standing then w.releaseFences c.seq else w) :
    Released c o s w t ∧ { c with phase := ph } ∈ t.contexts := by
  cases ho : o.standing with
  | false =>
    rw [ho, if_neg Bool.false_ne_true] at ht
    subst ht
    exact ⟨⟨h.taken, fun d hd hne _ => h.other hd hne, fun x => absurd (ho.symm.trans x) Bool.false_ne_true,
      List.prefix_refl _, rfl⟩, h.own hc⟩
  | true =>
    rw [ho, if_pos rfl, w.releaseFences_eq (h.seqsOk hs) c.seq, State.fenceEntries_congr h.anchor] at ht
    have mem : ∀ d ∈ w.contexts, d.released c.seq ∈ t.contexts := fun d hd => by
      rw [ht]
      exact List.mem_map_of_mem hd
    have queue : w.writeQueue <+: t.writeQueue := by
      rw [ht]
      exact List.prefix_append _ _
    refine ⟨⟨queue.subset h.taken, fun d hd hne other => ?_, fun _ d hd f left n fencing => ?_, queue, by rw [ht]⟩, ?_⟩
    · obtain no | other := other
      · exact absurd (ho.symm.trans no) (Bool.false_ne_true ∘ Eq.symm)
      · have here := mem d (h.other hd hne)
        rwa [Ctx.released_other other] at here
    · have hne : d.seq ≠ c.seq := fun e => by
        have same := Option.some.inj ((State.ctx?_mem hs hd).symm.trans (e ▸ State.ctx?_mem hs hc))
        rw [same, reading] at fencing
        exact nomatch fencing
      have there := h.other hd hne
      have here := mem d there
      rw [Ctx.released_fence fencing] at here
      split
      · next all =>
        rw [if_pos all] at here
        have entries : ∀ x ∈ s.fenceEntries c.seq d, x ∈ t.writeQueue := fun x hx => by
          rw [ht]
          exact List.mem_append_right _ (List.mem_flatMap.2 ⟨d, there, hx⟩)
        rw [State.fenceEntries_fence fencing, if_pos all] at entries
        exact ⟨here, entries _ List.mem_cons_self, entries _ (List.mem_cons_of_mem _ List.mem_cons_self)⟩
      · next some =>
        rw [if_neg some] at here
        exact here
    · have here := mem _ (h.own hc)
      rwa [Ctx.released_other (plain ho)] at here

/-- An order that becomes ACTIVE, before it hands over its work. -/
theorem State.activate_begins (s : State) (c : Ctx) (o : Order) : ∃ v,
    Handed c s v (.active o (s.beginProgress c.seq o)) [] ∧ v.links = s.links ∧ v.loadQueue = s.loadQueue ∧
      v.quiescing = s.quiescing ∧ v.fenceRecords c.seq = s.fenceRecords c.seq ∧
      s.activate c o = if o.standing then (v.handOver c.seq c.prio o).releaseFences c.seq
        else v.handOver c.seq c.prio o := by
  have taken := s.taken c
  unfold State.activate
  generalize (s.pushEntry (s.takenEntry c)).countTaken = u at taken ⊢
  have progress : u.beginProgress c.seq o = s.beginProgress c.seq o :=
    State.beginProgress_congr (congrArg State.rows taken.rest :) taken.contexts c.seq o
  refine ⟨u.setPhase c.seq (.active o (s.beginProgress c.seq o)), taken.started _, (congrArg State.links taken.rest :), (congrArg State.loadQueue taken.rest :),
    State.quiescing_congr (congrArg State.part taken.rest :) (congrArg State.resume taken.rest :), ?_, progress ▸ rfl⟩
  rw [State.fenceRecords_setPhase, State.fenceRecords_congr taken.contexts]

/-- A standing order made ACTIVE while the part quiesces ends at once, with its result (R158). -/
def StopsAtOnce (c : Ctx) (o : Order) (s : State) (ph : Phase) (es : List QEntry) : Prop :=
  o.standing = true → s.quiescing = true → ph = .closing .stopped true ∧
    es = [s.resultEntry c.slot (s.standingResult o (s.beginProgress c.seq o)),
      s.doneEntry c.slot (some c.seq) false .stopped]

/-- What holds after the take of every order, from what its hand-over leaves. -/
theorem Handed.finish {c : Ctx} {s w t : State} {o : Order} {ph : Phase} {es : List QEntry} (h : Handed c s w ph es)
    (hs : s.seqsOk) (hc : c ∈ s.contexts) (reading : c.phase = .reading false)
    (plain : o.standing = true → ∀ f left n, ph ≠ .active f (.fencing left n))
    (records : ∀ l, (w.link l).record = (s.link l).record) (stops : StopsAtOnce c o s ph es)
    (ht : t = if o.standing then w.releaseFences c.seq else w) {Q : Prop}
    (q : { c with phase := ph } ∈ t.contexts → (∀ e ∈ es, e ∈ t.writeQueue) → t.links = w.links →
      t.loadQueue = w.loadQueue → Q) :
    t.ordersTaken = s.ordersTaken + 1 ∧
      ⟨.taken, [⟨s.slotAddr c.slot + 8, leBytes 4 c.seq.toNat⟩, ⟨s.slotAddr c.slot, [2, 0, 0, 0]⟩]⟩ ∈ t.writeQueue ∧
      (∀ d ∈ s.contexts, d.seq ≠ c.seq →
        o.standing = false ∨ (∀ f left n, d.phase ≠ .active f (.fencing left n)) → d ∈ t.contexts) ∧
      (o.standing = true → ∀ d ∈ s.contexts, ∀ f left n, d.phase = .active f (.fencing left n) →
        if ∀ k ∈ left, k = c.seq then { d with phase := .closing .ok f.standing } ∈ t.contexts ∧
            s.resultEntry d.slot (byte1 n) ∈ t.writeQueue ∧
            s.doneEntry d.slot (some d.seq) f.notify .ok ∈ t.writeQueue
        else { d with phase := .active f (.fencing (left.filter fun k => !decide (k = c.seq)) n) } ∈ t.contexts) ∧
      (o.standing = true → s.quiescing = true → { c with phase := .closing .stopped true } ∈ t.contexts ∧
        [s.takenEntry c, s.resultEntry c.slot (s.standingResult o (s.beginProgress c.seq o)),
          s.doneEntry c.slot (some c.seq) false .stopped].Sublist t.writeQueue) ∧
      t.posted = s.posted ∧ t.rows = s.rows ∧ t.log = s.log ∧ t.engines = s.engines ∧ t.hostMem = s.hostMem ∧
      (∀ l, (t.link l).record = (s.link l).record) ∧ Q := by
  obtain ⟨released, own⟩ := h.released hs hc reading plain ht
  have links : t.links = w.links := (congrArg State.links released.rest :)
  have whole : ∀ {α : Type} (f : State → α), (∀ x : State, f { x with contexts := w.contexts, writeQueue := w.writeQueue } = f x) →
      (∀ x : State, f { x with
        contexts := s.contexts, writeQueue := s.writeQueue, loadQueue := s.loadQueue, links := s.links,
        statusDue := s.statusDue, spacing := s.spacing, ordersTaken := s.ordersTaken } = f x) → f t = f s :=
    fun f h1 h2 => (h1 t).symm.trans ((congrArg f released.rest).trans ((h2 w).symm.trans (congrArg f h.rest)))
  refine ⟨(congrArg State.ordersTaken released.rest :).trans h.count, released.taken, released.others, released.fences,
    fun standing quiesces => ?_, whole State.posted (fun _ => rfl) (fun _ => rfl),
    whole State.rows (fun _ => rfl) (fun _ => rfl), whole State.log (fun _ => rfl) (fun _ => rfl),
    whole State.engines (fun _ => rfl) (fun _ => rfl), whole State.hostMem (fun _ => rfl) (fun _ => rfl),
    fun l => (congrArg Link.record (State.link_congr links l)).trans (records l),
    q own (fun e he => released.queue.subset ?_) links (congrArg State.loadQueue released.rest :)⟩
  · obtain ⟨rfl, rfl⟩ := stops standing quiesces
    refine ⟨own, List.Sublist.trans ?_ released.queue.sublist⟩
    obtain e | e := h.queue <;> rw [e]
    · simp
    · simp only [List.append_assoc, List.cons_append, List.nil_append]
      exact ((List.Sublist.refl _).cons _).cons_cons _ |>.trans (List.sublist_append_right _ _)
  · obtain e | e := h.queue <;> rw [e] <;> exact List.mem_append_right _ he

/-- Settles O29. -/
theorem activeOrdersHandOverTheirWork : Obligations.ActiveOrdersHandOverTheirWork := by
  intro s c bs o hs hc reading fate
  obtain ⟨v, begun, links, loads, quiesces, records, active⟩ := s.activate_begins c o
  have link : ∀ {w : State}, w.links = s.links → ∀ l, w.link l = s.link l := fun h l => State.link_congr h l
  have same : ∀ {w : State}, w.links = s.links → ∀ l, (w.link l).record = (s.link l).record := fun h l => by rw [link h]
  have plain : ∀ {o p}, (∀ left n, p ≠ Progress.fencing left n) → o.standing = true →
      ∀ f left n, Phase.active o p ≠ .active f (.fencing left n) := fun h _ f left n e =>
    h left n (Phase.active.inj e).2
  have begins : ∀ {o p}, o.standing = false ∨ s.quiescing = false → StopsAtOnce c o s (.active o p) [] := by
    rintro o p (h | h) x y
    · exact absurd (h.symm.trans x) Bool.false_ne_true
    · exact absurd (h.symm.trans y) Bool.false_ne_true
  have inboxes : ∀ {w : State} {ls : List LinkId} {ev : SeqEvent}, (∀ l, w.link l =
      if l ∈ ls then { v.link l with inbox := (v.link l).inbox ++ [ev] } else v.link l) →
      (∀ l, (w.link l).record = (s.link l).record) ∧ ∀ {t : State}, t.links = w.links → ∀ l, t.link l =
        if l ∈ ls then { s.link l with inbox := (s.link l).inbox ++ [ev] } else s.link l := by
    intro w ls ev h
    refine ⟨fun l => ?_, fun ht l => ?_⟩
    · rw [h, link links]
      split <;> rfl
    · rw [State.link_congr ht, h, link links]
  refine ⟨s.activate c o, ?_, ?_⟩
  · rw [(slotRead_returns hs hc reading).1 bs, State.slotData_run fate]
  cases o with
  | adoptPlan base =>
    exact (begun.loads (v.loadQueue ++ [.adopt c.seq base])).finish hs hc reading (plain nofun) (same links)
      (begins (.inl rfl)) active fun own _ ht hq => ⟨by rw [hq, ← loads], ht.trans links, own⟩
  | refresh sc =>
    exact (begun.loads (v.loadQueue ++ [.refresh c.seq sc])).finish hs hc reading (plain nofun) (same links)
      (begins (.inl rfl)) active fun own _ ht hq => ⟨by rw [hq, ← loads], ht.trans links, own⟩
  | bringUp m =>
    obtain ⟨sent, new⟩ := begun.sends (maskLinks_nodup m) (.bringUp c.seq)
    obtain ⟨kept, after⟩ := inboxes new
    refine sent.finish hs hc reading (plain nofun) kept (begins (.inl rfl)) active fun own _ ht _ => ⟨fun l => ?_, own⟩
    rw [after ht]
    simp only [mem_maskLinks]
  | takeDown m =>
    obtain ⟨sent, new⟩ := begun.sends (maskLinks_nodup m) (.takeDown c.seq)
    obtain ⟨kept, after⟩ := inboxes new
    refine sent.finish hs hc reading (plain nofun) kept (begins (.inl rfl)) active fun own _ ht _ => ⟨fun l => ?_, own⟩
    rw [after ht]
    simp only [mem_maskLinks]
  | requalify k =>
    obtain ⟨sent, new⟩ := begun.sends (List.nodup_singleton k) (.requalify c.seq c.prio)
    obtain ⟨kept, after⟩ := inboxes new
    refine sent.finish hs hc reading (plain nofun) kept (begins (.inl rfl)) active fun own _ ht _ => ⟨fun l => ?_, own⟩
    rw [after ht]
    simp only [List.mem_singleton]
  | selfCheck p u n =>
    obtain ⟨sent, new⟩ := begun.sends (v.presentLinks_nodup p) (.stateQuery c.seq)
    obtain ⟨kept, after⟩ := inboxes new
    refine sent.finish hs hc reading (plain nofun) kept (begins (.inl rfl)) active fun own _ ht _ => ⟨fun l => ?_, own⟩
    rw [after ht, State.presentLinks_congr begun.rows]
    simp only [State.mem_presentLinks]
  | locate p =>
    obtain ⟨ended, still⟩ := begun.ends hs hc .ok (locateResult (v.locate p))
    have hits : v.locate p = (allBelow 64).filter fun l => p.hits (s.link l).record := by
      unfold State.locate
      simp only [link links]
    refine ended.finish hs hc reading (fun _ _ _ _ => nofun) (same (still.trans links)) (fun x => Bool.noConfusion x) active
      fun own queued ht _ => ⟨ht.trans (still.trans links), ?_, queued _ (List.mem_cons_of_mem _ List.mem_cons_self), own⟩
    rw [← hits]
    exact queued _ List.mem_cons_self
  | watch m k base count =>
    have handed : v.handOver c.seq c.prio (.watch m k base count) =
        if v.quiescing then v.endStanding c.seq .stopped else v := rfl
    rw [handed, quiesces] at active
    by_cases hq : s.quiescing = true
    · obtain ⟨ended, still⟩ := begun.stops hs hc rfl
      rw [if_pos hq] at active
      exact ended.finish hs hc reading (fun _ _ _ _ => nofun) (same (still.trans links)) (fun _ _ => ⟨rfl, rfl⟩) active
        fun _ _ ht _ => ⟨ht.trans (still.trans links), fun no => absurd (no.symm.trans hq) Bool.false_ne_true⟩
    · rw [if_neg hq] at active
      exact begun.finish hs hc reading (plain nofun) (same links) (begins (.inr (Bool.not_eq_true _ ▸ hq))) active
        fun own _ ht _ => ⟨ht.trans links, fun _ => own⟩
  | await m st tmo any =>
    have handed : v.handOver c.seq c.prio (.await m st tmo any) =
        if v.quiescing then v.endStanding c.seq .stopped else v.sendAll (maskLinks m) (.stateQuery c.seq) := rfl
    rw [handed, quiesces] at active
    by_cases hq : s.quiescing = true
    · obtain ⟨ended, still⟩ := begun.stops hs hc rfl
      rw [if_pos hq] at active
      exact ended.finish hs hc reading (fun _ _ _ _ => nofun) (same (still.trans links)) (fun _ _ => ⟨rfl, rfl⟩) active
        fun _ _ ht _ => ⟨fun no => absurd (no.symm.trans hq) Bool.false_ne_true, fun _ => ht.trans (still.trans links)⟩
    · rw [if_neg hq] at active
      obtain ⟨sent, new⟩ := begun.sends (maskLinks_nodup m) (.stateQuery c.seq)
      obtain ⟨kept, after⟩ := inboxes new
      refine sent.finish hs hc reading (plain nofun) kept (begins (.inr (Bool.not_eq_true _ ▸ hq))) active
        fun own _ ht _ => ⟨fun _ => ⟨fun l => ?_, own⟩, fun yes => absurd yes hq⟩
      rw [after ht]
      simp only [mem_maskLinks]
  | fence n =>
    have handed : v.handOver c.seq c.prio (.fence n) =
        if (v.fenceRecords c.seq).isEmpty then v.endOrder c.seq .ok (byte1 0) else v := rfl
    rw [handed, records] at active
    have empty : (s.fenceRecords c.seq).isEmpty = true ↔ ∀ d ∈ s.contexts, earlier d.seq c.seq = true → d.fenceable = false := by
      simp [State.fenceRecords, List.filter_eq_nil_iff]
    by_cases none : (s.fenceRecords c.seq).isEmpty = true
    · obtain ⟨ended, still⟩ := begun.ends hs hc .ok (byte1 0)
      rw [if_pos none] at active
      refine ended.finish hs hc reading (fun _ _ _ _ => nofun) (same (still.trans links)) (fun x => Bool.noConfusion x) active
        fun own _ ht _ => ⟨ht.trans (still.trans links), fun _ => own, fun ⟨d, hd, early, waits⟩ => ?_⟩
      exact absurd (waits.symm.trans (empty.1 none d hd early)) (Bool.false_ne_true ∘ Eq.symm)
    · rw [if_neg none] at active
      exact begun.finish hs hc reading (fun x => Bool.noConfusion x) (same links) (begins (.inl rfl)) active
        fun own _ ht _ => ⟨ht.trans links, fun all => absurd (empty.2 all) none, fun _ => own⟩

end Sys2Proof.Machine
end


section
/-! PROOFS. LINK_ANSWER, REQUALIFY_OUTCOME, LOAD_END_REPORT and AWAIT_TIMEOUT: how an order ends. -/

namespace Sys2Proof.Machine

-- One declaration at a time: the threads of a parallel elaboration exceed the memory of the check.
set_option Elab.async false

/-! ## The end of an order in flight (R155) -/

/-- `x` holds the orders and writes of `s`. -/
structure SameOrders (s x : State) : Prop where
  contexts : x.contexts = s.contexts
  queue : x.writeQueue = s.writeQueue
  anchor : x.anchor = s.anchor
  rows : x.rows = s.rows

theorem SameOrders.refl (s : State) : SameOrders s s := ⟨rfl, rfl, rfl, rfl⟩

theorem SameOrders.putLink (s : State) (l : LinkId) (lk : Link) : SameOrders s (s.putLink l lk) := ⟨rfl, rfl, rfl, rfl⟩

theorem SameOrders.found {s x : State} (h : SameOrders s x) (hs : s.seqsOk) {c : Ctx} (hc : c ∈ s.contexts) :
    x.ctx? c.seq = some c := (State.ctx?_congr h.contexts _).trans (State.ctx?_mem hs hc)

/-- An ACTIVE order in flight ends: its result, its DONE, and its context in CLOSING. -/
theorem SameOrders.ends {s x : State} (h : SameOrders s x) (hs : s.seqsOk) {c : Ctx} (hc : c ∈ s.contexts) {o : Order}
    {p : Progress} (hp : c.phase = .active o p) (st : Status) (result : List Byte) :
    x.endOrder c.seq st result = { x with
      writeQueue := s.writeQueue ++ [s.resultEntry c.slot result, s.doneEntry c.slot (some c.seq) o.notify st],
      contexts := s.contexts.map fun d => if d.seq = c.seq then { d with phase := .closing st o.standing } else d } := by
  have found := h.found hs hc
  obtain ⟨slot, prio, seq, phase⟩ := c
  obtain rfl : phase = .active o p := hp
  rw [x.endOrder_active found, State.resultEntry_congr h.anchor, State.doneEntry_congr h.anchor, h.contexts, h.queue]

/-- An order whose phase has just changed ends: the change is not seen. -/
theorem State.endOrder_setPhase {s : State} (hs : s.seqsOk) {c : Ctx} (hc : c ∈ s.contexts) (o : Order) (p : Progress)
    (st : Status) (result : List Byte) : (s.setPhase c.seq (.active o p)).endOrder c.seq st result = { s with
      writeQueue := s.writeQueue ++ [s.resultEntry c.slot result, s.doneEntry c.slot (some c.seq) o.notify st],
      contexts := s.contexts.map fun d => if d.seq = c.seq then { d with phase := .closing st o.standing } else d } := by
  have seqs : (s.setPhase c.seq (.active o p)).seqsOk := by
    unfold State.seqsOk
    rw [State.setPhase_seqs]
    exact hs
  have own : ({ c with phase := .active o p } : Ctx) ∈ (s.setPhase c.seq (.active o p)).contexts :=
    List.mem_map.2 ⟨c, hc, if_pos rfl⟩
  have twice : ((s.setPhase c.seq (.active o p)).contexts.map fun d =>
      if d.seq = c.seq then { d with phase := Phase.closing st o.standing } else d) =
      s.contexts.map fun d => if d.seq = c.seq then { d with phase := Phase.closing st o.standing } else d := by
    rw [State.setPhase_contexts, List.map_map]
    refine List.map_congr_left fun d _ => ?_
    by_cases hd : d.seq = c.seq <;> simp [hd]
  refine ((SameOrders.refl _).ends seqs own rfl st result).trans ?_
  dsimp only
  rw [twice]
  rfl

/-- The view of an AWAIT that ends. -/
theorem SameOrders.standingEnds {s x : State} (h : SameOrders s x) (hs : s.seqsOk) {c : Ctx} (hc : c ∈ s.contexts)
    {o : Order} {p : Progress} (hp : c.phase = .active o p) (standing : o.standing = true) (st : Status) :
    x.endStanding c.seq st = { x with
      writeQueue := s.writeQueue ++
        [s.resultEntry c.slot (s.standingResult o p), s.doneEntry c.slot (some c.seq) false st],
      contexts := s.contexts.map fun d => if d.seq = c.seq then { d with phase := .closing st true } else d } := by
  have ends := h.ends hs hc hp st (s.standingResult o p)
  rw [standing, Order.notify_standing standing] at ends
  rw [← ends]
  have found := h.found hs hc
  obtain ⟨slot, prio, seq, phase⟩ := c
  obtain rfl : phase = .active o p := hp
  unfold State.endStanding
  rw [found]
  dsimp only
  rw [if_pos standing, State.standingResult_congr h.rows]

/-! ## Answers (R162, R168 to R172) -/

/-- The links of a state set, of a view as it counts (R177). -/
def State.awaitMet (s : State) (sts : BitVec 9) (view : List (LinkId × LinkState)) : Addr :=
  satisfied sts (s.awaitView view)

/-- An AWAIT with a new view: it ends OK once every link is in and its condition holds, else it keeps the view (R177,
R178). -/
theorem SameOrders.awaitCheck {s x : State} (h : SameOrders s x) (hs : s.seqsOk) {c : Ctx} (hc : c ∈ s.contexts)
    (m : Addr) (sts : BitVec 9) (tmo : Nat) (any : Bool) (waiting : List LinkId) (view : List (LinkId × LinkState))
    (timer : Timer) : x.awaitCheck c.seq (.await m sts tmo any) waiting view timer =
      if waiting = [] ∧ (if any then s.awaitMet sts view ≠ 0 else s.awaitMet sts view = m) then { x with
        writeQueue := s.writeQueue ++ [s.resultEntry c.slot (maskBytes (s.awaitMet sts view)),
          s.doneEntry c.slot (some c.seq) false .ok],
        contexts := s.contexts.map fun d => if d.seq = c.seq then { d with phase := .closing .ok true } else d }
      else x.setPhase c.seq (.active (.await m sts tmo any) (.viewing waiting view timer)) := by
  have seqs : x.seqsOk := by
    unfold State.seqsOk
    rw [h.contexts]
    exact hs
  have ends := State.endOrder_setPhase seqs (h.contexts ▸ hc) (.await m sts tmo any) (.viewing waiting view timer) .ok
    (maskBytes (s.awaitMet sts view))
  rw [State.resultEntry_congr h.anchor, State.doneEntry_congr h.anchor, h.contexts, h.queue] at ends
  obtain ⟨y, hy⟩ : ∃ y, y = x.setPhase c.seq (.active (.await m sts tmo any) (.viewing waiting view timer)) := ⟨_, rfl⟩
  have rows : y.rows = s.rows := by
    rw [hy]
    exact h.rows
  have met : satisfied sts (y.awaitView view) = s.awaitMet sts view := by
    unfold State.awaitMet State.awaitView
    simp only [State.present_congr rows]
  have condition : (waiting.isEmpty = true ∧ awaitHolds m any (s.awaitMet sts view) = true) ↔
      (waiting = [] ∧ (if any then s.awaitMet sts view ≠ 0 else s.awaitMet sts view = m)) := by
    unfold awaitHolds
    rw [List.isEmpty_iff]
    cases any <;> simp
  have check : x.awaitCheck c.seq (.await m sts tmo any) waiting view timer =
      if waiting.isEmpty = true ∧ awaitHolds m any (satisfied sts (y.awaitView view)) = true then
        y.endOrder c.seq .ok (maskBytes (satisfied sts (y.awaitView view))) else y := by
    rw [hy]
    rfl
  rw [check, met]
  rw [← hy] at ends ⊢
  exact if_congr condition ends rfl

/-- A link with its oldest message to the Order Unit taken. -/
theorem State.dropOrdMsg_eq {s : State} {l : LinkId} {m : OrdMsg} {rest : List OrdMsg} (h : (s.link l).toOrder = m :: rest) :
    s.dropOrdMsg l = s.putLink l { s.link l with toOrder := rest } := by
  unfold State.dropOrdMsg
  rw [h]
  rfl

theorem linkAnswer_takes {s : State} {l : LinkId} {ref : Word} {a : Answer} {rest : List OrdMsg}
    (h : (s.link l).toOrder = .answer ref a :: rest) :
    exec (.linkAnswer l) s = .next ((s.putLink l { s.link l with toOrder := rest }).answerArrives l ref a) := by
  rw [← State.dropOrdMsg_eq h]
  change Host.Outcome.next _ = _
  rw [h]

/-- An answer for a take that has no ACTIVE order is discarded (R162). -/
theorem State.answerArrives_ended {s : State} {q : Word}
    (h : ∀ c ∈ s.contexts, c.seq = q → ∀ o p, c.phase ≠ .active o p) (l : LinkId) (a : Answer) :
    s.answerArrives l q a = s := by
  unfold State.answerArrives
  cases found : s.ctx? q with
  | none => rfl
  | some c =>
    obtain ⟨hc, hq⟩ := State.ctx?_some found
    have ended := h c hc hq
    obtain ⟨slot, prio, seq, phase⟩ := c
    cases phase with
    | active o p => exact absurd rfl (ended o p)
    | reading | closing => rfl

/-- One more link of a BRING_UP or a TAKE_DOWN has answered (R168, R169). -/
theorem State.answerArrives_acted {x : State} {c : Ctx} (found : x.ctx? c.seq = some c) {o : Order} {m : Addr}
    {waiting : List LinkId} {acted : Addr} (hp : c.phase = .active o (.asking waiting acted))
    (ho : o = .bringUp m ∨ o = .takeDown m) (l : LinkId) (yes : Bool) :
    x.answerArrives l c.seq (.acted yes) = x.actedAnswer c.seq o m waiting acted l yes (decide (o = .bringUp m)) := by
  obtain ⟨slot, prio, seq, phase⟩ := c
  obtain rfl : phase = .active o (.asking waiting acted) := hp
  unfold State.answerArrives
  rw [found]
  obtain rfl | rfl := ho
  · rw [decide_eq_true rfl]
  · rw [decide_eq_false nofun]

theorem filter_others_nil {l : LinkId} {waiting : List LinkId} :
    (waiting.filter fun w => !decide (w = l)) = [] ↔ ∀ k ∈ waiting, k = l := by
  simp [List.filter_eq_nil_iff]

/-- The state of a REQUALIFY's link that was not in UP (R170). -/
theorem requalRefused_eq (st : LinkState) : requalRefused st = [BitVec.ofNat 8 st.code] := by
  cases st <;> rfl

/-- Settles O30. -/
theorem linkAnswersReachTheirOrder : Obligations.LinkAnswersReachTheirOrder := by
  intro s l ref a rest hs hm s'
  rw [linkAnswer_takes hm]
  have same : SameOrders s s' := .putLink s l _
  refine ⟨fun h => congrArg _ (State.answerArrives_ended (s := s') h l a), ?_⟩
  rintro c hc rfl
  have found := same.found hs hc
  refine ⟨?_, ?_, ?_⟩
  · rintro o m waiting acted yes hp ho rfl acted' hacted
    have plain : o.standing = false ∧ o.notify = false := by
      obtain rfl | rfl := ho <;> exact ⟨rfl, rfl⟩
    change (_ → Host.Outcome.next (s'.answerArrives l c.seq (.acted yes)) = _) ∧
      (_ → Host.Outcome.next (s'.answerArrives l c.seq (.acted yes)) = _)
    rw [State.answerArrives_acted found hp ho]
    unfold State.actedAnswer
    dsimp only
    rw [← hacted]
    constructor
    · rintro ⟨k, hk, hne⟩
      exact congrArg _ (if_neg fun e => hne (filter_others_nil.1 (List.isEmpty_iff.1 e) k hk))
    · intro all
      rw [if_pos (List.isEmpty_iff.2 (filter_others_nil.2 all)), same.ends hs hc hp, plain.1, plain.2]
      simp only [decide_eq_true_eq]
      rfl
  · rintro k st hp rfl
    change Host.Outcome.next (s'.answerArrives l c.seq (.state st)) = _
    have ends := same.ends hs hc hp .notPermitted (requalRefused st)
    rw [requalRefused_eq] at ends
    obtain ⟨slot, prio, seq, phase⟩ := c
    obtain rfl : phase = .active (.requalify k) .atWork := hp
    unfold State.answerArrives
    rw [found]
    dsimp only
    rw [requalRefused_eq]
    exact congrArg _ ends
  · rintro port units threshold waiting acted st hp rfl
    change (_ → _ → Host.Outcome.next (s'.answerArrives l c.seq (.state st)) = _) ∧
      (_ → _ → Host.Outcome.next (s'.answerArrives l c.seq (.state st)) = _)
    have ends := same.ends hs hc hp .notPermitted []
    have arrives : s'.answerArrives l c.seq (.state st) =
        s'.selfCheckAnswer c.seq c.prio port units threshold waiting l st := by
      obtain ⟨slot, prio, seq, phase⟩ := c
      obtain rfl : phase = .active (.selfCheck port units threshold) (.asking waiting acted) := hp
      unfold State.answerArrives
      rw [found]
    rw [arrives]
    unfold State.selfCheckAnswer
    dsimp only
    constructor
    · intro off held
      rw [if_neg (not_or.2 ⟨off, held⟩)]
      exact congrArg _ ends
    · intro quiet all
      rw [if_pos quiet, if_pos (List.isEmpty_iff.2 (filter_others_nil.2 all))]
      rfl

/-! ## Reports (R162 to R166, R171, R178) -/

theorem State.ctx?_own {x : State} {c : Ctx} (found : x.ctx? c.seq = some c) {o : Order} {p : Progress}
    (hp : c.phase = .active o p) : x.ctx? c.seq = some ⟨c.slot, c.prio, c.seq, .active o p⟩ := by
  rw [found, ← hp]

/-- A choice equals, in each case, the branch that it takes. -/
theorem ite_eq_branches {α : Type} {p : Prop} [Decidable p] (a b : α) :
    if p then (if p then a else b) = a else (if p then a else b) = b := by
  split <;> rfl

/-- Settles O31. -/
theorem ordersEndByReports : Obligations.OrdersEndByReports := by
  constructor
  · intro s l c m sts tmo any waiting view timer st rest hs hc hp hm
    have same : SameOrders s (s.putLink l { s.link l with toOrder := rest }) := .putLink s l _
    refine ⟨_, linkAnswer_takes hm, ?_⟩
    have arrives : (s.putLink l { s.link l with toOrder := rest }).answerArrives l c.seq (.state st) =
        (s.putLink l { s.link l with toOrder := rest }).awaitCheck c.seq (.await m sts tmo any)
          (waiting.filter fun w => !decide (w = l)) (viewSet view l st) timer := by
      unfold State.answerArrives
      rw [State.ctx?_own (same.found hs hc) hp]
    rw [arrives, same.awaitCheck hs hc]
    rintro _ _ _ rfl rfl rfl
    exact ite_eq_branches _ _
  · intro s c o p hs hc hp
    refine ⟨?_, ?_, ?_, ?_⟩
    · rintro l k q rest rfl hm
      have same : SameOrders s (s.putLink l { s.link l with toOrder := rest }) := .putLink s l _
      have takes : exec (.requalifyOutcome l) s =
          .next ((s.putLink l { s.link l with toOrder := rest }).requalArrives c.seq q) := by
        rw [← State.dropOrdMsg_eq hm]
        change Host.Outcome.next _ = _
        rw [hm]
      rw [takes]
      unfold State.requalArrives
      rw [State.ctx?_own (same.found hs hc) hp]
      dsimp only
      rw [same.ends hs hc hp]
      cases q.finalV <;> rfl
    · rintro r rest hr href ⟨base, rfl⟩
      have same : SameOrders s { s with loadReports := rest } := ⟨rfl, rfl, rfl, rfl⟩
      have takes : exec .loadEndReport s = .next (({ s with loadReports := rest } : State).loadReport r) := by
        change Host.Outcome.next _ = _
        rw [hr]
      rw [takes]
      unfold State.loadReport
      rw [href, State.ctx?_own (same.found hs hc) hp]
      exact congrArg _ (same.ends hs hc hp _ _)
    · rintro r rest sc hr href hsc ⟨asked, rfl⟩
      have same : SameOrders s { s with loadReports := rest } := ⟨rfl, rfl, rfl, rfl⟩
      have takes : exec .loadEndReport s = .next (({ s with loadReports := rest } : State).loadReport r) := by
        change Host.Outcome.next _ = _
        rw [hr]
      rw [takes]
      unfold State.loadReport
      rw [href, State.ctx?_own (same.found hs hc) hp, hsc]
      exact congrArg _ (same.ends hs hc hp _ _)
    · rintro m sts tmo any waiting view timer rfl rfl
      have same := SameOrders.refl s
      have takes : exec (.awaitTimeout c.seq) s = .next (s.endStanding c.seq .timeout) := by
        change Host.Outcome.next (match s.ctx? c.seq with
          | some ⟨_, _, _, .active (.await ..) _⟩ => s.endStanding c.seq .timeout
          | _ => s) = _
        rw [State.ctx?_own (same.found hs hc) hp]
      rw [takes, same.standingEnds hs hc hp rfl]
      rfl

end Sys2Proof.Machine
end


section
/-! PROOFS. LINK_EVENT: a link event offered to the standing orders. -/

namespace Sys2Proof.Machine

-- One declaration at a time: the threads of a parallel elaboration exceed the memory of the check.
set_option Elab.async false

/-- What an event makes of the context of a take (R157, R176 to R178). -/
def Ctx.offered (s : State) (l : LinkId) (ev : LinkEvt) (c : Ctx) : Ctx :=
  match c.phase with
  | .active (.watch m k base count) (.written n) =>
    if (m.getLsbD l.val && k.selects ev.body) = true ∧ c.seq ∉ ev.reading then
      { c with phase := if n + 1 = count then .closing .ok true else .active (.watch m k base count) (.written (n + 1)) }
    else c
  | .active (.await m sts tmo any) (.viewing waiting view timer) =>
    match ev.body with
    | .state entered _ =>
      if m.getLsbD l.val = true ∧ l ∉ waiting then
        { c with phase :=
            if waiting = [] ∧ (if any then s.awaitMet sts (viewSet view l entered) ≠ 0
              else s.awaitMet sts (viewSet view l entered) = m) then .closing .ok true
            else .active (.await m sts tmo any) (.viewing waiting (viewSet view l entered) timer) }
      else c
    | .discrepancy .. | .verdict .. => c
  | _ => c

/-- The writes that it queues. -/
def State.offerEntries (s : State) (l : LinkId) (ev : LinkEvt) (c : Ctx) : List QEntry :=
  match c.phase with
  | .active (.watch m k base count) (.written n) =>
    if (m.getLsbD l.val && k.selects ev.body) = true ∧ c.seq ∉ ev.reading then
      ⟨.watch, [⟨base.toNat + 16 * n, watchBytes l ev⟩]⟩ ::
        if n + 1 = count then [s.resultEntry c.slot (leBytes 2 (n + 1)), s.doneEntry c.slot (some c.seq) false .ok] else []
    else []
  | .active (.await m sts _ any) (.viewing waiting view _) =>
    match ev.body with
    | .state entered _ =>
      if m.getLsbD l.val = true ∧ l ∉ waiting then
        if waiting = [] ∧ (if any then s.awaitMet sts (viewSet view l entered) ≠ 0
            else s.awaitMet sts (viewSet view l entered) = m) then
          [s.resultEntry c.slot (maskBytes (s.awaitMet sts (viewSet view l entered))),
            s.doneEntry c.slot (some c.seq) false .ok]
        else []
      else []
    | .discrepancy .. | .verdict .. => []
  | _ => []

/-- One context of the list is offered an event. -/
theorem State.offer_mid (s : State) {pre suf : List Ctx} {c : Ctx} (l : LinkId) (ev : LinkEvt)
    (hc : s.contexts = pre ++ c :: suf) (h : s.seqsOk) :
    s.offer l ev c.seq = { s with
      contexts := pre ++ c.offered s l ev :: suf, writeQueue := s.writeQueue ++ s.offerEntries l ev c } := by
  have mem : c ∈ s.contexts := by simp [hc]
  have found := State.ctx?_mem h mem
  have distinct : ((pre ++ c :: suf).map (·.seq)).Nodup := hc ▸ h
  have still : s = { s with contexts := pre ++ c :: suf, writeQueue := s.writeQueue ++ [] } := by
    rw [← hc, List.append_nil]
  obtain ⟨slot, prio, seq, phase⟩ := c
  unfold State.offer Ctx.offered State.offerEntries
  rw [found]
  cases phase with
  | reading | closing => exact still
  | active o p =>
    cases o with
    | watch m k base count =>
      cases p with
      | written n =>
        by_cases sel : (m.getLsbD l.val && k.selects ev.body) = true ∧ seq ∉ ev.reading
        · have sel' : m.getLsbD l.val = true ∧ k.selects ev.body = true ∧ seq ∉ ev.reading := by
            rwa [Bool.and_eq_true, and_assoc] at sel
          dsimp only
          rw [if_pos sel', if_pos sel, if_pos sel]
          by_cases full : n + 1 = count
          · rw [if_pos full, if_pos full, if_pos full]
            have ends := State.endOrder_setPhase
              (s := s.pushEntry ⟨.watch, [⟨base.toNat + 16 * n, watchBytes l ev⟩]⟩) h mem (.watch m k base count)
              (.written (n + 1)) .ok (leBytes 2 (n + 1))
            refine ends.trans ?_
            rw [State.pushEntry_contexts, hc, map_setPhase_mid distinct, State.pushEntry_writeQueue, List.append_assoc]
            rfl
          · rw [if_neg full, if_neg full, if_neg full]
            change ({ s.pushEntry _ with contexts := (s.pushEntry _).contexts.map _ } : State) = _
            rw [State.pushEntry_contexts, hc, map_setPhase_mid distinct]
            rfl
        · have sel' : ¬(m.getLsbD l.val = true ∧ k.selects ev.body = true ∧ seq ∉ ev.reading) := by
            rwa [Bool.and_eq_true, and_assoc] at sel
          dsimp only
          rw [if_neg sel', if_neg sel, if_neg sel]
          exact still
      | _ => exact still
    | await m sts tmo any =>
      cases p with
      | viewing waiting view timer =>
        cases hb : ev.body with
        | state entered left =>
          dsimp only
          split
          · rw [(SameOrders.refl s).awaitCheck h mem m sts tmo any waiting (viewSet view l entered) timer]
            by_cases met : waiting = [] ∧ (if any then s.awaitMet sts (viewSet view l entered) ≠ 0
                else s.awaitMet sts (viewSet view l entered) = m)
            · rw [if_pos met, if_pos met, if_pos met, hc, map_setPhase_mid distinct]
            · rw [if_neg met, if_neg met, if_neg met]
              change ({ s with contexts := s.contexts.map _ } : State) = _
              rw [hc, map_setPhase_mid distinct, List.append_nil]
          · exact still
        | discrepancy | verdict => exact still
      | _ => exact still
    | _ => exact still

theorem Ctx.offered_seq (s : State) (l : LinkId) (ev : LinkEvt) (c : Ctx) : (c.offered s l ev).seq = c.seq := by
  unfold Ctx.offered
  split
  · split <;> rfl
  · split
    · split <;> rfl
    · rfl
    · rfl
  · rfl

/-- All that a link event does: every standing order takes it, in the order of the contexts. -/
theorem State.offerAll_eq (s : State) (h : s.seqsOk) (l : LinkId) (ev : LinkEvt) : s.offerAll l ev = { s with
    contexts := s.contexts.map (Ctx.offered s l ev),
    writeQueue := s.writeQueue ++ s.contexts.flatMap (s.offerEntries l ev) } := by
  have key : ∀ (suf pre : List Ctx) (t : State), t.contexts = pre ++ suf → t.seqsOk →
      (suf.map (·.seq)).foldl (fun s q => s.offer l ev q) t = { t with
        contexts := pre ++ suf.map (Ctx.offered t l ev),
        writeQueue := t.writeQueue ++ suf.flatMap (t.offerEntries l ev) } := by
    intro suf
    induction suf with
    | nil => intro pre t hc _; simp [← hc]
    | cons c suf ih =>
      intro pre t hc hn
      have seq := c.offered_seq t l ev
      simp only [List.map_cons, List.foldl_cons]
      rw [t.offer_mid l ev hc hn, ih (pre ++ [c.offered t l ev])]
      · simp only [List.append_assoc, List.singleton_append, List.flatMap_cons]
        rfl
      · simp
      · have e : ((pre ++ c :: suf).map (·.seq)).Nodup := hc ▸ hn
        unfold State.seqsOk
        simpa [seq] using e
  exact key s.contexts [] s rfl h

/-! ## The cases of an offer -/

theorem Ctx.offered_other {s : State} {l : LinkId} {ev : LinkEvt} {c : Ctx}
    (h : ∀ o p, c.phase = .active o p → o.standing = false) : c.offered s l ev = c := by
  unfold Ctx.offered
  split
  · next e => exact absurd (h _ _ e) nofun
  · next e => exact absurd (h _ _ e) nofun
  · rfl

theorem Ctx.offered_watch {s : State} {l : LinkId} {ev : LinkEvt} {c : Ctx} {m : Addr} {k : WatchSet} {base : Addr}
    {count n : Nat} (h : c.phase = .active (.watch m k base count) (.written n)) : c.offered s l ev =
      if (m.getLsbD l.val && k.selects ev.body) = true ∧ c.seq ∉ ev.reading then
        { c with phase := if n + 1 = count then .closing .ok true else .active (.watch m k base count) (.written (n + 1)) }
      else c := by
  unfold Ctx.offered
  rw [h]

theorem State.offerEntries_watch {s : State} {l : LinkId} {ev : LinkEvt} {c : Ctx} {m : Addr} {k : WatchSet} {base : Addr}
    {count n : Nat} (h : c.phase = .active (.watch m k base count) (.written n)) : s.offerEntries l ev c =
      if (m.getLsbD l.val && k.selects ev.body) = true ∧ c.seq ∉ ev.reading then
        ⟨.watch, [⟨base.toNat + 16 * n, watchBytes l ev⟩]⟩ ::
          if n + 1 = count then [s.resultEntry c.slot (leBytes 2 (n + 1)), s.doneEntry c.slot (some c.seq) false .ok] else []
      else [] := by
  unfold State.offerEntries
  rw [h]

section
variable {s : State} {l : LinkId} {ev : LinkEvt} {c : Ctx} {m : Addr} {sts : BitVec 9} {tmo : Nat} {any : Bool}
  {waiting : List LinkId} {view : List (LinkId × LinkState)} {timer : Timer}
  (h : c.phase = .active (.await m sts tmo any) (.viewing waiting view timer))
include h

/-- An AWAIT stays as it is for an event of another kind, of a link still waited for, and of a link outside its mask. -/
theorem Ctx.offered_await_still
    (no : (∀ entered left, ev.body ≠ .state entered left) ∨ l ∈ waiting ∨ m.getLsbD l.val = false) :
    c.offered s l ev = c := by
  unfold Ctx.offered
  rw [h]
  dsimp only
  split
  · next entered left hb =>
    refine if_neg fun ⟨inside, idle⟩ => ?_
    obtain other | waits | outside := no
    · exact absurd hb (other entered left)
    · exact idle waits
    · exact Bool.false_ne_true (outside.symm.trans inside)
  · rfl
  · rfl

/-- An AWAIT that selects a STATE event takes the new view, and ends where its condition then holds. -/
theorem Ctx.offered_await {entered left : LinkState} (hb : ev.body = .state entered left) (inside : m.getLsbD l.val = true)
    (idle : l ∉ waiting) : c.offered s l ev = { c with
      phase := if waiting = [] ∧ (if any then s.awaitMet sts (viewSet view l entered) ≠ 0
          else s.awaitMet sts (viewSet view l entered) = m) then .closing .ok true
        else .active (.await m sts tmo any) (.viewing waiting (viewSet view l entered) timer) } ∧
    s.offerEntries l ev c =
      if waiting = [] ∧ (if any then s.awaitMet sts (viewSet view l entered) ≠ 0
          else s.awaitMet sts (viewSet view l entered) = m) then
        [s.resultEntry c.slot (maskBytes (s.awaitMet sts (viewSet view l entered))),
          s.doneEntry c.slot (some c.seq) false .ok]
      else [] := by
  unfold Ctx.offered State.offerEntries
  rw [h]
  dsimp only
  rw [hb]
  exact ⟨if_pos ⟨inside, idle⟩, if_pos ⟨inside, idle⟩⟩

end

/-- Settles O32. -/
theorem watchesRecordEvents : Obligations.WatchesRecordEvents := by
  intro s l ev rest hs hm
  obtain ⟨x, hx⟩ : ∃ x, x = s.putLink l { s.link l with toOrder := rest } := ⟨_, rfl⟩
  have same : SameOrders s x := hx ▸ .putLink s l _
  have takes : exec (.linkEvent l) s = .next (x.offerAll l ev) := by
    rw [hx, ← State.dropOrdMsg_eq hm]
    change Host.Outcome.next _ = _
    rw [hm]
  have seqs : x.seqsOk := by
    unfold State.seqsOk
    rw [same.contexts]
    exact hs
  have met : ∀ sts view, x.awaitMet sts view = s.awaitMet sts view := fun sts view => by
    unfold State.awaitMet State.awaitView
    simp only [State.present_congr same.rows]
  rw [← hx]
  refine ⟨_, takes, ?_⟩
  rw [x.offerAll_eq seqs l ev, same.contexts, same.queue]
  have mem : ∀ c ∈ s.contexts, c.offered x l ev ∈ s.contexts.map (Ctx.offered x l ev) := fun c hc =>
    List.mem_map_of_mem hc
  have entries : ∀ c ∈ s.contexts, ∀ e ∈ x.offerEntries l ev c,
      e ∈ s.writeQueue ++ s.contexts.flatMap (x.offerEntries l ev) := fun c hc e he =>
    List.mem_append_right _ (List.mem_flatMap.2 ⟨c, hc, he⟩)
  refine ⟨rfl, ?_, List.prefix_append _ _, fun c hc other => ?_, fun c hc m k base count n hp => ⟨fun no => ?_, fun sel late => ?_⟩,
    fun c hc m sts tmo any waiting view timer hp no => ?_,
    fun c hc m sts tmo any waiting view timer entered left hp hb hsel hin here hhere => ?_⟩
  · rw [hx]
    rfl
  · have k := mem c hc
    rwa [Ctx.offered_other other] at k
  · have k := mem c hc
    rwa [Ctx.offered_watch hp, if_neg (by
      rintro ⟨yes, notin⟩; exact no.elim (fun x => Bool.false_ne_true (x.symm.trans yes)) notin)] at k
  · have k := mem c hc
    have q := entries c hc
    rw [Ctx.offered_watch hp, if_pos ⟨sel, late⟩] at k
    rw [State.offerEntries_watch hp, if_pos ⟨sel, late⟩] at q
    refine ⟨q _ List.mem_cons_self, fun more => ?_, fun full => ?_⟩
    · rwa [if_neg more] at k
    · rw [if_pos full] at k q
      rw [State.resultEntry_congr same.anchor, State.doneEntry_congr same.anchor, full] at q
      exact ⟨k, q _ (by simp), q _ (by simp)⟩
  · exact Ctx.offered_await_still hp no ▸ mem c hc
  · obtain ⟨new, writes⟩ := Ctx.offered_await (s := x) hp hb hsel hin
    have k := mem c hc
    have q := entries c hc
    rw [new, met] at k
    rw [writes, met, State.resultEntry_congr same.anchor, State.doneEntry_congr same.anchor] at q
    obtain rfl : here = s.awaitMet sts (viewSet view l entered) := hhere
    by_cases done : waiting = [] ∧ (if any then s.awaitMet sts (viewSet view l entered) ≠ 0
        else s.awaitMet sts (viewSet view l entered) = m)
    · rw [if_pos done] at k q ⊢
      exact ⟨k, q _ List.mem_cons_self, q _ (List.mem_cons_of_mem _ List.mem_cons_self)⟩
    · rw [if_neg done] at k ⊢
      exact k

end Sys2Proof.Machine
end


section
/-! PROOFS. WRITER_BEGIN and RECORD_WRITE_STEP_DONE: the choice of a source, and the three steps of a record write. -/

namespace Sys2Proof.Machine

-- One declaration at a time: the threads of a parallel elaboration exceed the memory of the check.
set_option Elab.async false

/-! ## The window (R190) -/

theorem State.inWindow_congr {s t : State} (h : t.anchor = s.anchor) (addr size : Nat) :
    t.inWindow addr size = s.inWindow addr size := by
  unfold State.inWindow
  rw [h]

theorem State.stepOk_congr {s t : State} (h : t.anchor = s.anchor) (w : WStep) : t.stepOk w = s.stepOk w :=
  State.inWindow_congr h _ _

theorem State.recordAddr_congr {s t : State} (h : t.anchor = s.anchor) (l : LinkId) : t.recordAddr l = s.recordAddr l := by
  unfold State.recordAddr
  rw [h]

theorem PartState.works {p : PartState} (idle : p ≠ .idle) (faulted : p ≠ .faulted) :
    p ∈ [PartState.loading, .running, .quiescing] := by
  cases p with
  | idle => exact absurd rfl idle
  | faulted => exact absurd rfl faulted
  | loading | running | quiescing => decide

theorem Faulted.kept {s t : State} {addr : Nat} {k : FaultKind} {source : FaultSource} (h : Faulted s t addr k source) :
    s.writeQueue <+: t.writeQueue := by
  obtain e | e := h.queue <;> rw [e]
  exact List.prefix_append _ _

/-! ## The steps of a record write (R12) -/

theorem recordStepAt_zero (b : Nat) (g : BitVec 16) (body : List Byte) :
    recordStepAt b g body 0 = ⟨b, leBytes 2 (g + 1).toNat⟩ := rfl

theorem recordStepAt_one (b : Nat) (g : BitVec 16) (body : List Byte) : recordStepAt b g body 1 = ⟨b + 2, body⟩ := rfl

theorem recordStepAt_two (b : Nat) (g : BitVec 16) (body : List Byte) :
    recordStepAt b g body 2 = ⟨b, leBytes 2 (g + 2).toNat⟩ := rfl

theorem State.issueStep_ok {s : State} {b : Nat} {g : BitVec 16} {body : List Byte} {step : Fin 3}
    (h : s.stepOk (recordStepAt b g body step) = true) (l : LinkId) (st : LinkState) (counts : Bool) :
    s.issueStep l b g body st counts step = { s with writing := some (.record l b g body st counts step false) } :=
  if_pos h

theorem State.issueStep_out {s : State} {b : Nat} {g : BitVec 16} {body : List Byte} {step : Fin 3}
    (h : s.stepOk (recordStepAt b g body step) = false) (l : LinkId) (st : LinkState) (counts : Bool) :
    s.issueStep l b g body st counts step = s.recordFault l (recordStepAt b g body step).addr .window :=
  if_neg (by rw [h]; exact Bool.false_ne_true)

/-- A record write that a fault ends: the link goes back to the head of the dirty set (R13, R15, R190). -/
structure RecordFaulted (l : LinkId) (addr : Nat) (k : FaultKind) (s t : State) : Prop where
  writing : t.writing = none
  dirty : t.dirty = l :: s.dirty.filter fun x => !decide (x = l)
  retry : t.retry = some .dirtySet
  part : t.part = .faulted
  resume : t.resume = some s.part
  mem : t.hostMem = s.hostMem
  links : t.links = s.links
  captured : s.notices &&& Notice.busFault = 0 → t.faultAddr = BitVec.ofNat 64 addr ∧ t.faultKind = k ∧
    t.faultSource = .recordWrite ∧ t.multiple = false

theorem State.recordFault_faulted {s : State} (works : s.part ∈ [PartState.loading, .running, .quiescing]) (l : LinkId)
    (addr : Nat) (k : FaultKind) : RecordFaulted l addr k s (s.recordFault l addr k) := by
  have fault := State.takeFault_works
    { s with writing := none, dirty := l :: s.dirty.filter (fun x => !decide (x = l)), retry := some .dirtySet } works
    addr k .recordWrite
  refine ⟨(congrArg State.writing fault.rest :), (congrArg State.dirty fault.rest :), (congrArg State.retry fault.rest :),
    fault.part, fault.resume, (congrArg State.hostMem fault.rest :), (congrArg State.links fault.rest :), fun clear => ?_⟩
  obtain ⟨addr, kind, source, multiple, _⟩ := fault.captured clear
  exact ⟨addr, kind, source, multiple⟩

/-! ## The beginning of a write (R14, R15) -/

theorem State.nextSource_dirty {s : State} {l : LinkId} {rest : List LinkId} (hd : s.dirty = l :: rest)
    (h : s.writeQueue = [] ∨ s.retry = some .dirtySet ∨ (s.retry = none ∧ s.lastSource = .queue)) :
    s.nextSource = some .dirtySet := by
  have work : s.hasWork .dirtySet = true := by
    unfold State.hasWork
    rw [hd]
    rfl
  obtain empty | again | ⟨fresh, turn⟩ := h
  · have none : s.hasWork .queue = false := by
      unfold State.hasWork
      rw [empty]
      rfl
    unfold State.nextSource
    cases s.retry with
    | none => cases s.lastSource <;> simp [Source.other, work, none]
    | some src => cases src <;> simp [Source.other, work, none]
  · simp [State.nextSource, again, work]
  · simp [State.nextSource, fresh, turn, Source.other, work]

theorem State.nextSource_queue {s : State} {q : QEntry} {rest : List QEntry} (hq : s.writeQueue = q :: rest)
    (h : s.dirty = [] ∨ s.retry = some .queue ∨ (s.retry = none ∧ s.lastSource = .dirtySet)) :
    s.nextSource = some .queue := by
  have work : s.hasWork .queue = true := by
    unfold State.hasWork
    rw [hq]
    rfl
  obtain empty | again | ⟨fresh, turn⟩ := h
  · have none : s.hasWork .dirtySet = false := by
      unfold State.hasWork
      rw [empty]
      rfl
    unfold State.nextSource
    cases s.retry with
    | none => cases s.lastSource <;> simp [Source.other, work, none]
    | some src => cases src <;> simp [Source.other, work, none]
  · simp [State.nextSource, again, work]
  · simp [State.nextSource, fresh, turn, Source.other, work]

theorem State.nextSource_none {s : State} (hd : s.dirty = []) (hq : s.writeQueue = []) : s.nextSource = none := by
  have dirty : s.hasWork .dirtySet = false := by
    unfold State.hasWork
    rw [hd]
    rfl
  have queue : s.hasWork .queue = false := by
    unfold State.hasWork
    rw [hq]
    rfl
  unfold State.nextSource
  cases s.retry with
  | none => cases s.lastSource <;> simp [Source.other, dirty, queue]
  | some src => cases src <;> simp [Source.other, dirty, queue]

/-- The writer may begin a write (R14, R15, R184). -/
def State.writerReady (s : State) : Prop := s.writing.isNone = true ∧ s.part ≠ .idle ∧ s.part ≠ .faulted ∧ s.accepted = true

theorem State.beginWrite_dirty {s : State} (ready : s.writerReady) {l : LinkId} {rest : List LinkId} (hd : s.dirty = l :: rest)
    (turn : s.writeQueue = [] ∨ s.retry = some .dirtySet ∨ (s.retry = none ∧ s.lastSource = .queue)) :
    s.beginWrite = ({ s with dirty := rest, lastSource := .dirtySet, retry := none } : State).issueStep l (s.recordAddr l)
      (s.link l).record.generation (s.link l).record.body (s.link l).record.state (decide (l ∈ s.awaited)) 0 := by
  unfold State.beginWrite
  refine (if_pos ready).trans ?_
  rw [State.nextSource_dirty hd turn]
  dsimp only
  unfold State.beginRecord
  rw [hd]

theorem State.beginWrite_queue {s : State} (ready : s.writerReady) {q : QEntry} {rest : List QEntry} {w : WStep}
    {steps : List WStep} (hq : s.writeQueue = q :: rest) (hs : s.entrySteps q = w :: steps)
    (turn : s.dirty = [] ∨ s.retry = some .queue ∨ (s.retry = none ∧ s.lastSource = .dirtySet)) :
    s.beginWrite = if ({ s.sampled q with lastSource := .queue, retry := none } : State).stepOk w then
        { s.sampled q with lastSource := .queue, retry := none, writing := some (.queue (w :: steps)) }
      else ({ s.sampled q with lastSource := .queue, retry := none } : State).queueFault w.addr .window := by
  unfold State.beginWrite
  refine (if_pos ready).trans ?_
  rw [State.nextSource_queue hq turn]
  dsimp only
  unfold State.beginEntry
  rw [hq]
  dsimp only
  rw [hs]

theorem State.sampled_eq (s : State) (q : QEntry) :
    s.sampled q = { s with statusDue := if q.kind.isStatus then false else s.statusDue } := by
  unfold State.sampled
  split <;> rfl

/-- Settles O33. -/
theorem writerTakesItsSourcesInTurn : Obligations.WriterTakesItsSourcesInTurn := by
  intro s
  have begins : exec .writerBegin s = .next s.beginWrite := rfl
  rw [begins]
  refine ⟨fun h => ?_, fun free idle faulted accepted => ⟨fun l rest hd turn => ⟨fun inside => ?_, fun outside => ?_⟩,
    fun q rest w steps hq turn hsteps => ⟨fun inside => ?_, fun outside => ?_⟩⟩⟩
  · unfold State.beginWrite
    split
    · next ok =>
      obtain ⟨free, idle', faulted', accepted'⟩ := ok
      obtain busy | idle | faulted | before | ⟨hd, hq⟩ := h
      · exact absurd (Option.isNone_iff_eq_none.1 free) busy
      · exact absurd idle idle'
      · exact absurd faulted faulted'
      · exact absurd (before.symm.trans accepted') Bool.false_ne_true
      · rw [State.nextSource_none hd hq]
    · rfl
  all_goals
    have ready : s.writerReady := ⟨Option.isNone_iff_eq_none.2 free, idle, faulted, accepted⟩
  · rw [State.beginWrite_dirty ready hd turn]
    exact congrArg _ (State.issueStep_ok (by exact inside) ..)
  · refine ⟨_, rfl, ?_⟩
    have out := State.issueStep_out (s := { s with dirty := rest, lastSource := .dirtySet, retry := none })
      (b := s.recordAddr l) (g := (s.link l).record.generation) (body := (s.link l).record.body) (step := 0) outside l
      (s.link l).record.state (decide (l ∈ s.awaited))
    rw [State.beginWrite_dirty ready hd turn, out]
    have fault := State.recordFault_faulted (s := { s with dirty := rest, lastSource := .dirtySet, retry := none })
      (PartState.works idle faulted) l (s.recordAddr l) .window
    exact ⟨fault.writing, fault.dirty, fault.retry, fault.part, fault.resume, fault.mem, fault.links, fault.captured⟩
  · rw [State.beginWrite_queue ready hq hsteps turn, s.sampled_eq q]
    exact congrArg _ (if_pos inside)
  · refine ⟨_, rfl, ?_⟩
    have fault := State.takeFault_works
      { s.sampled q with lastSource := .queue, retry := some .queue, writing := none }
      (by rw [s.sampled_eq q]; exact PartState.works idle faulted) w.addr .window .queueWrite
    have out : ({ s.sampled q with lastSource := .queue, retry := none } : State).stepOk w = false := by
      rw [s.sampled_eq q]
      exact outside
    rw [State.beginWrite_queue ready hq hsteps turn, out]
    change Faulted _ (({ s.sampled q with lastSource := .queue, retry := none } : State).queueFault w.addr .window) _ _ _
      at fault
    rw [if_neg Bool.false_ne_true]
    rw [s.sampled_eq q] at fault ⊢
    refine ⟨(congrArg State.writing fault.rest :), (congrArg State.retry fault.rest :), fault.part, fault.resume,
      (congrArg State.hostMem fault.rest :), fault.kept, fun clear => ?_⟩
    obtain ⟨addr, kind, source, multiple, _⟩ := fault.captured clear
    exact ⟨addr, kind, source, multiple⟩

/-! ## The end of LOADING (R184) -/

/-- `t` is `s` after its entry to RUNNING, with a status block entry queued. -/
structure Runs (s t : State) : Prop where
  part : t.part = .running
  loading : t.loading = none
  queue : s.writeQueue <+: t.writeQueue
  waits : s.writing = none → s.accepted = true → t.statusWaiting = true
  rest : { t with part := s.part, loading := s.loading, writeQueue := s.writeQueue, spacing := s.spacing } = s

theorem State.statusWaiting_idle {s : State} (h : s.writing = none) :
    s.statusWaiting = s.writeQueue.any fun q => q.kind.isStatus := by
  unfold State.statusWaiting State.headBegun
  rw [h]
  rfl

/-- Once an anchor is accepted, an entry waits after the status block has been queued. -/
theorem State.queueStatus_waits {s : State} (idle : s.writing = none) (accepted : s.accepted = true) :
    s.queueStatus.statusWaiting = true := by
  unfold State.queueStatus
  split
  · refine (State.statusWaiting_idle (by exact idle)).trans ?_
    change List.any (s.writeQueue ++ [_]) _ = true
    rw [List.any_append]
    exact Bool.or_true _
  · next h => simpa [accepted] using h

theorem State.checkRunning_runs {s : State} (part : s.part = .loading) (loading : s.loading = some (.completing [] true))
    (clear : ∀ q ∈ s.writeQueue, q.kind ≠ .clear) : Runs s s.checkRunning := by
  have runs : s.checkRunning = { s with loading := none, part := .running }.queueStatus := by
    unfold State.checkRunning
    rw [loading]
    exact if_pos ⟨part, List.all_eq_true.2 fun q hq => decide_eq_true (clear q hq)⟩
  have rest := State.queueStatus_rest { s with loading := none, part := .running }
  have kept := (State.queueStatus_only { s with loading := none, part := .running }).queueKept
  have waits := State.queueStatus_waits (s := { s with loading := none, part := .running })
  rw [runs]
  exact ⟨(congrArg State.part rest :), (congrArg State.loading rest :), kept, waits,
    (congrArg (fun x : State => { x with part := s.part, loading := s.loading }) rest :)⟩

theorem State.checkRunning_still {s : State} (h : s.part = .loading → s.loading = some (.completing [] true) →
    ∃ q ∈ s.writeQueue, q.kind = .clear) : s.checkRunning = s := by
  unfold State.checkRunning
  split
  · next loading =>
    refine if_neg fun ⟨part, others⟩ => ?_
    obtain ⟨q, hq, clear⟩ := h part loading
    exact of_decide_eq_true (List.all_eq_true.1 others q hq) clear
  all_goals rfl

theorem State.checkRunning_cases (s : State) : s.checkRunning = s ∨ (s.part = .loading ∧ Runs s s.checkRunning) := by
  by_cases h : s.part = .loading ∧ s.loading = some (.completing [] true) ∧ ∀ q ∈ s.writeQueue, q.kind ≠ .clear
  · exact .inr ⟨h.1, State.checkRunning_runs h.1 h.2.1 h.2.2⟩
  · refine .inl (State.checkRunning_still fun part loading => ?_)
    by_contra others
    exact h ⟨part, loading, fun q hq clear => others ⟨q, hq, clear⟩⟩

theorem State.checkRunning_rest (s : State) : s.writeQueue <+: s.checkRunning.writeQueue ∧
    { s.checkRunning with part := s.part, loading := s.loading, writeQueue := s.writeQueue, spacing := s.spacing } = s := by
  obtain e | ⟨_, runs⟩ := s.checkRunning_cases
  · rw [e]
    exact ⟨List.prefix_refl _, rfl⟩
  · exact ⟨runs.queue, runs.rest⟩

/-! ## The end of a record write (R12, R16) -/

theorem State.noteWritten_spec (s : State) (l : LinkId) (st : LinkState) :
    (s.noteWritten l st).lastWritten = s.lastWritten.set l (some st) ∧
    (s.noteWritten l st).notices = (if s.lastWritten[l] = none ∨ s.lastWritten[l] = some st then s.notices
      else s.notices ||| Notice.linkChange) ∧
    { s.noteWritten l st with lastWritten := s.lastWritten, notices := s.notices, messages := s.messages } = s := by
  unfold State.noteWritten
  dsimp only
  split
  · next h =>
    rw [h]
    exact ⟨rfl, rfl, rfl⟩
  · next before h =>
    rw [h]
    split
    · next same =>
      rw [if_pos (.inr (congrArg some same))]
      exact ⟨rfl, rfl, rfl⟩
    · next other =>
      rw [if_neg (not_or.2 ⟨nofun, fun e => other (Option.some.inj e)⟩)]
      exact ⟨rfl, rfl, rfl⟩

theorem State.loadingWritten_eq (s : State) (l : LinkId) (counts : Bool) :
    { s.loadingWritten l counts with loading := s.loading } = s := by
  unfold State.loadingWritten
  split
  · split <;> rfl
  all_goals rfl

/-- All that the third step of a record write does beside its bytes. -/
structure RecordWritten (l : LinkId) (g : BitVec 16) (st : LinkState) (s x : State) : Prop where
  link : x.link l = { s.link l with record := { (s.link l).record with generation := g + 2 } }
  others : ∀ k, k ≠ l → x.link k = s.link k
  written : x.lastWritten = s.lastWritten.set l (some st)
  notices : x.notices = (if s.lastWritten[l] = none ∨ s.lastWritten[l] = some st then s.notices
    else s.notices ||| Notice.linkChange)
  rest : { x with links := s.links, lastWritten := s.lastWritten, notices := s.notices, messages := s.messages,
                  writing := s.writing, loading := s.loading } = s

/-- A record write completes, before the test for the end of LOADING. -/
def State.recordNoted (s : State) (l : LinkId) (g : BitVec 16) (st : LinkState) (counts : Bool) : State :=
  (({ s with writing := none }.setGeneration l (g + 2)).noteWritten l st).loadingWritten l counts

theorem State.recordDone_eq (s : State) (l : LinkId) (g : BitVec 16) (st : LinkState) (counts : Bool) :
    s.recordDone l g st counts = (s.recordNoted l g st counts).checkRunning := rfl

theorem State.recordNoted_written (s : State) (l : LinkId) (g : BitVec 16) (st : LinkState) (counts : Bool) :
    RecordWritten l g st s (s.recordNoted l g st counts) ∧ (s.recordNoted l g st counts).writing = none ∧
      ∀ ls landed, s.loading = some (.completing ls landed) → counts = true →
        (s.recordNoted l g st counts).loading = some (.completing (ls.filter fun k => !decide (k = l)) landed) := by
  obtain ⟨u, hu⟩ : ∃ u, u = ({ s with writing := none } : State).setGeneration l (g + 2) := ⟨_, rfl⟩
  obtain ⟨written, notices, rest⟩ := u.noteWritten_spec l st
  have last := (u.noteWritten l st).loadingWritten_eq l counts
  have eq : s.recordNoted l g st counts = (u.noteWritten l st).loadingWritten l counts := by rw [hu]; rfl
  have still : { u with links := s.links, writing := s.writing } = s := by rw [hu]; rfl
  have loads : ∀ ls landed, s.loading = some (.completing ls landed) → counts = true →
      ((u.noteWritten l st).loadingWritten l counts).loading =
        some (.completing (ls.filter fun k => !decide (k = l)) landed) := fun ls landed loading hc => by
    have here : (u.noteWritten l st).loading = some (.completing ls landed) :=
      (congrArg State.loading rest :).trans ((congrArg State.loading still :).trans loading)
    unfold State.loadingWritten
    rw [here, hc]
    rfl
  rw [eq]
  generalize u.noteWritten l st = v at written notices rest last loads ⊢
  generalize v.loadingWritten l counts = x at last loads ⊢
  have links : x.links = u.links := (congrArg State.links last :).trans (congrArg State.links rest :)
  refine ⟨⟨?_, fun k hk => ?_, ?_, ?_, ?_⟩, ?_, loads⟩
  · rw [State.link_congr links, hu]
    exact State.link_putLink ..
  · rw [State.link_congr links, hu]
    exact State.link_putLink_other _ _ hk
  · rw [← (congrArg State.lastWritten still :), ← written]
    exact (congrArg State.lastWritten last :)
  · rw [← (congrArg State.lastWritten still :), ← (congrArg State.notices still :), ← notices]
    exact (congrArg State.notices last :)
  · exact ((congrArg (fun y : State => { y with
      links := s.links, lastWritten := s.lastWritten, notices := s.notices, messages := s.messages,
      writing := s.writing, loading := s.loading }) last :).trans (congrArg (fun y : State => { y with
      links := s.links, lastWritten := s.lastWritten, notices := s.notices, messages := s.messages,
      writing := s.writing, loading := s.loading }) rest :)).trans (hu ▸ rfl)
  · exact ((congrArg State.writing last :).trans (congrArg State.writing rest :)).trans (hu ▸ rfl)

/-- A step in issue that returns without an error lands, and the next is issued or the write is complete. -/
theorem recordStep_lands {s : State} {l : LinkId} {b : Nat} {g : BitVec 16} {body : List Byte} {st : LinkState}
    {counts : Bool} {i : Fin 3} {ended : Bool} (h : s.writing = some (.record l b g body st counts i ended)) :
    exec (.recordWriteStepDone false) s = .next (s.recordLands l b g body st counts i ended) ∧
      exec (.recordWriteStepDone true) s = .next (if ended then { s with writing := none }
        else s.recordFault l (recordStepAt b g body i).addr .writeError) := by
  have ends : ∀ err, exec (.recordWriteStepDone err) s = .next (s.recordStepEnds err) := fun _ => rfl
  constructor <;> rw [ends] <;> unfold State.recordStepEnds <;> rw [h] <;> rfl

/-- Settles O34. -/
theorem recordWritesLandInThreeSteps : Obligations.RecordWritesLandInThreeSteps := by
  intro s l b g body st counts
  refine ⟨fun err other => ?_, fun h inside => ?_, fun h inside => ?_, fun ended h => ?_,
    fun i err k addr m h works why => ?_, fun i h => ?_⟩
  · change Host.Outcome.next (s.recordStepEnds err) = _
    unfold State.recordStepEnds
    split
    · next h => exact absurd h (other _ _ _ _ _ _ _ _)
    all_goals rfl
  · rw [(recordStep_lands h).1]
    exact congrArg _ (State.issueStep_ok (by exact inside) ..)
  · rw [(recordStep_lands h).1]
    exact congrArg _ (State.issueStep_ok (by exact inside) ..)
  · obtain ⟨x, hx⟩ : ∃ x, x = s.land ⟨b, leBytes 2 (g + 2).toNat⟩ := ⟨_, rfl⟩
    have still : { x with hostMem := s.hostMem } = s := by rw [hx]; rfl
    have landed : x.hostMem = Memory.write s.hostMem b (leBytes 2 (g + 2).toNat) := by rw [hx]; rfl
    have done : exec (.recordWriteStepDone false) s = .next (x.recordNoted l g st counts).checkRunning := by
      rw [(recordStep_lands h).1, hx]
      rfl
    obtain ⟨written, free, loads⟩ := x.recordNoted_written l g st counts
    generalize x.recordNoted l g st counts = y at done written free loads
    obtain ⟨kept, rest⟩ := y.checkRunning_rest
    have links : y.checkRunning.links = y.links := (congrArg State.links rest :)
    have part : y.part = s.part := (congrArg State.part written.rest :).trans (congrArg State.part still :)
    have queue : y.writeQueue = s.writeQueue :=
      (congrArg State.writeQueue written.rest :).trans (congrArg State.writeQueue still :)
    have old : ∀ k, x.link k = s.link k := fun k => State.link_congr (congrArg State.links still :) k
    have last : x.lastWritten = s.lastWritten := (congrArg State.lastWritten still :)
    have written' : y.checkRunning.lastWritten = s.lastWritten.set l (some st) := by
      rw [← last, ← written.written]
      exact (congrArg State.lastWritten rest :)
    refine ⟨_, done, ?_, ?_, ?_, fun k hk => ?_, ?_, fun k hk => ?_, ?_, ?_, ?_, fun hp => ?_,
      fun ls ok hp hc hl => ⟨fun all hok clear => ?_, fun more => ?_⟩⟩
    · exact (congrArg State.writing rest :).trans free
    · exact ((congrArg State.hostMem rest :).trans (congrArg State.hostMem written.rest :)).trans landed
    · rw [State.link_congr links, written.link, old]
    · rw [State.link_congr links, written.others k hk, old]
    · simp [written']
    · have hne : l.val ≠ k.val := fun e => hk (Fin.ext e.symm)
      simp [written', hne]
    · exact ((congrArg State.dirty rest :).trans (congrArg State.dirty written.rest :)).trans (congrArg State.dirty still :)
    · exact queue ▸ kept
    · rw [← last, ← (congrArg State.notices still :), ← written.notices]
      exact (congrArg State.notices rest :)
    · have same : y.checkRunning = y := State.checkRunning_still fun x => absurd (part.symm.trans x) hp
      rw [same]
      exact ⟨part, queue⟩
    · have empty : ls.filter (fun k => !decide (k = l)) = [] := filter_others_nil.2 all
      have loading := loads ls ok ((congrArg State.loading still :).trans hl) hc
      rw [empty, hok] at loading
      have runs := State.checkRunning_runs (part.trans hp) loading (queue ▸ clear)
      refine ⟨runs.part, runs.loading, fun accepted => runs.waits free ?_⟩
      exact ((congrArg State.accepted written.rest :).trans (congrArg State.accepted still :)).trans accepted
    · have loading := loads ls ok ((congrArg State.loading still :).trans hl) hc
      have same : y.checkRunning = y := State.checkRunning_still fun _ now => by
        obtain ⟨empty, hok⟩ := LoadStage.completing.inj (Option.some.inj (loading.symm.trans now))
        obtain ⟨k, hk, hne⟩ | waits | clear := more
        · exact absurd (filter_others_nil.1 empty k hk) hne
        · exact absurd (waits.symm.trans hok) Bool.false_ne_true
        · exact queue ▸ clear
      rw [same]
      exact ⟨part.trans hp, loading⟩
  · obtain ⟨rfl, rfl, rfl, rfl⟩ | ⟨rfl, rfl, rfl, out, rfl, rfl⟩ | ⟨rfl, rfl, rfl, out, here, rfl⟩ := why
    · have fault := State.recordFault_faulted works l (recordStepAt b g body i).addr .writeError
      have addr : (recordStepAt b g body i).addr = b + (if i = 1 then 2 else 0) := by
        match i with
        | 0 | 1 | 2 => rfl
      rw [addr] at fault
      refine ⟨_, (recordStep_lands h).2, ?_⟩
      rw [if_neg Bool.false_ne_true, addr]
      exact ⟨fault.writing, fault.mem, fault.links, fault.dirty, fault.retry, fault.part, fault.resume, fault.captured⟩
    · have fault := State.recordFault_faulted (s := s.land ⟨b, leBytes 2 (g + 1).toNat⟩) works l (b + 2) .window
      have faults : s.recordLands l b g body st counts 0 false =
          (s.land ⟨b, leBytes 2 (g + 1).toNat⟩).recordFault l (b + 2) .window :=
        State.issueStep_out (s := s.land ⟨b, leBytes 2 (g + 1).toNat⟩) (b := b) (g := g) (body := body) (step := 1) out ..
      refine ⟨_, (recordStep_lands h).1, ?_⟩
      rw [faults]
      exact ⟨fault.writing, fault.mem, fault.links, fault.dirty, fault.retry, fault.part, fault.resume, fault.captured⟩
    · have fault := State.recordFault_faulted (s := s.land ⟨b + 2, body⟩) works l b .window
      have faults : s.recordLands l b g body st counts 1 false = (s.land ⟨b + 2, body⟩).recordFault l b .window :=
        State.issueStep_out (s := s.land ⟨b + 2, body⟩) (b := b) (g := g) (body := body) (step := 2) out ..
      refine ⟨_, (recordStep_lands h).1, ?_⟩
      rw [faults, here]
      exact ⟨fault.writing, fault.mem, fault.links, fault.dirty, fault.retry, fault.part, fault.resume, fault.captured⟩
  · refine ⟨(recordStep_lands h).2, fun two => ?_⟩
    rw [(recordStep_lands h).1]
    match i with
    | 0 => rfl
    | 1 => rfl
    | 2 => exact absurd rfl two

end Sys2Proof.Machine
end


section
/-! PROOFS. QUEUE_WRITE_DONE: the landing of a write queue entry, its faults, and the ends of LOADING and QUIESCING. -/

namespace Sys2Proof.Machine

-- One declaration at a time: the threads of a parallel elaboration exceed the memory of the check.
set_option Elab.async false

/-! ## The steps of an entry (R140, R190) -/

/-- The bytes of some steps, in their order. -/
def landAll (steps : List WStep) (m : List Host.Cell) : List Host.Cell :=
  steps.foldl (fun m w => Memory.write m w.addr w.bytes) m

/-- Steps that all lie in the window land. -/
theorem State.landSteps_done (steps : List WStep) : ∀ s : State, (∀ w ∈ steps, s.inWindow w.addr w.bytes.length = true) →
    s.landSteps none steps = ({ s with hostMem := landAll steps s.hostMem }, .done) := by
  induction steps with
  | nil => exact fun _ _ => rfl
  | cons w ws ih =>
    intro s inside
    obtain ⟨here, later⟩ := List.forall_mem_cons.1 inside
    have ok : s.stepOk w = true := here
    unfold State.landSteps
    rw [ok]
    exact ih (s.land w) later

/-- A run of steps faults at the first that lies outside the window, or that the memory refuses. -/
theorem State.landSteps_fault (w : WStep) (after : List WStep) (k : FaultKind) (before : List WStep) :
    ∀ (s : State) (err : Option Nat), (∀ x ∈ before, s.inWindow x.addr x.bytes.length = true) →
    ((k = .writeError ∧ err = some before.length ∧ s.inWindow w.addr w.bytes.length = true) ∨
      (k = .window ∧ (∀ n, err = some n → before.length ≤ n) ∧ s.inWindow w.addr w.bytes.length = false)) →
    s.landSteps err (before ++ w :: after) = ({ s with hostMem := landAll before s.hostMem }, .fault w.addr k) := by
  induction before with
  | nil =>
    rintro s err _ (⟨rfl, rfl, inside⟩ | ⟨rfl, _, outside⟩)
    · have ok : s.stepOk w = true := inside
      change s.landSteps (some 0) (w :: after) = _
      unfold State.landSteps
      rw [ok]
      rfl
    · have no : s.stepOk w = false := outside
      change s.landSteps err (w :: after) = _
      unfold State.landSteps
      rw [no]
      rfl
  | cons x xs ih =>
    intro s err inside why
    obtain ⟨here, later⟩ := List.forall_mem_cons.1 inside
    have ok : s.stepOk x = true := here
    have next : ∃ err', s.landSteps err (x :: (xs ++ w :: after)) = (s.land x).landSteps err' (xs ++ w :: after) ∧
        ((k = .writeError ∧ err' = some xs.length ∧ s.inWindow w.addr w.bytes.length = true) ∨
          (k = .window ∧ (∀ n, err' = some n → xs.length ≤ n) ∧ s.inWindow w.addr w.bytes.length = false)) := by
      cases err with
      | none =>
        refine ⟨none, ?_, ?_⟩
        · conv_lhs => unfold State.landSteps
          rw [ok]
          rfl
        · exact why.imp (fun h => absurd h.2.1 nofun) fun ⟨kind, _, out⟩ => ⟨kind, nofun, out⟩
      | some n =>
        cases n with
        | zero => exact absurd why (by simp)
        | succ n =>
          refine ⟨some n, ?_, ?_⟩
          · conv_lhs => unfold State.landSteps
            rw [ok]
            rfl
          · refine why.imp (fun ⟨kind, at_, ok⟩ => ⟨kind, ?_, ok⟩) fun ⟨kind, late, out⟩ => ⟨kind, fun m hm => ?_, out⟩
            · simpa using at_
            · obtain rfl := Option.some.inj hm
              simpa using late _ rfl
    obtain ⟨err', step, why'⟩ := next
    exact step.trans (ih (s.land x) err' later why')

/-! ## Faults outside IDLE (R187) -/

theorem State.takeFault_faulted {s : State} (h : s.part = .faulted) (addr : Nat) (k : FaultKind) (source : FaultSource) :
    s.takeFault addr k source = s.captureFault addr k source := by
  have part : (s.captureFault addr k source).part = .faulted :=
    (congrArg State.part (s.captureFault_rest addr k source) :).trans h
  unfold State.takeFault State.enterFaulted
  rw [part]

theorem State.captureFault_spec (s : State) (addr : Nat) (k : FaultKind) (source : FaultSource) :
    (s.notices &&& Notice.busFault = 0 → (s.captureFault addr k source).faultAddr = BitVec.ofNat 64 addr ∧
      (s.captureFault addr k source).faultKind = k ∧ (s.captureFault addr k source).faultSource = source ∧
      (s.captureFault addr k source).multiple = false) ∧
    (s.notices &&& Notice.busFault ≠ 0 → (s.captureFault addr k source).faultAddr = s.faultAddr ∧
      (s.captureFault addr k source).faultKind = s.faultKind ∧ (s.captureFault addr k source).faultSource = s.faultSource ∧
      (s.captureFault addr k source).multiple = true) := by
  unfold State.captureFault
  constructor
  · intro clear
    rw [if_pos clear]
    exact ⟨rfl, rfl, rfl, rfl⟩
  · intro set
    rw [if_neg set]
    exact ⟨rfl, rfl, rfl, rfl⟩

/-- A write of the queue that a fault ends, outside IDLE (R140, R187, R190). -/
structure EntryFaulted (addr : Nat) (k : FaultKind) (s t : State) : Prop where
  part : t.part = .faulted
  resume : t.resume = if s.part = .faulted then s.resume else some s.part
  writing : t.writing = none
  retry : t.retry = some .queue
  mem : t.hostMem = s.hostMem
  queue : s.writeQueue <+: t.writeQueue
  same : (∃ m steps rest, s.writeQueue = ⟨.status m, steps⟩ :: rest) → t.writeQueue = s.writeQueue
  captured : s.notices &&& Notice.busFault = 0 → t.faultAddr = BitVec.ofNat 64 addr ∧ t.faultKind = k ∧
    t.faultSource = .queueWrite ∧ t.multiple = false
  again : s.notices &&& Notice.busFault ≠ 0 → t.faultAddr = s.faultAddr ∧ t.faultKind = s.faultKind ∧
    t.faultSource = s.faultSource ∧ t.multiple = true

/-- Nothing is queued for a status block of which an entry waits (R193). -/
theorem State.queueStatus_waiting {s : State} (h : s.statusWaiting = true) : s.queueStatus = s :=
  if_neg fun x => x.2 h

theorem State.queueFault_faulted {s : State} (idle : s.part ≠ .idle) (addr : Nat) (k : FaultKind) :
    EntryFaulted addr k s (s.queueFault addr k) := by
  obtain ⟨x, hx⟩ : ∃ x : State, x = { s with writing := none, retry := some .queue } := ⟨_, rfl⟩
  have eq : s.queueFault addr k = x.takeFault addr k .queueWrite := by rw [hx]; rfl
  have rest := x.captureFault_rest addr k .queueWrite
  have part : x.part = s.part := by rw [hx]
  have queue : x.writeQueue = s.writeQueue := by rw [hx]
  have notices : x.notices = s.notices := by rw [hx]
  have free : x.writing = none := by rw [hx]
  have retry : x.retry = some .queue := by rw [hx]
  have mem : x.hostMem = s.hostMem := by rw [hx]
  have resume : x.resume = s.resume := by rw [hx]
  have old : x.faultAddr = s.faultAddr ∧ x.faultKind = s.faultKind ∧ x.faultSource = s.faultSource := by
    rw [hx]
    exact ⟨rfl, rfl, rfl⟩
  obtain ⟨fresh, again⟩ := x.captureFault_spec addr k .queueWrite
  rw [notices] at fresh again
  rw [eq]
  by_cases faulted : s.part = .faulted
  · rw [State.takeFault_faulted (part.trans faulted)]
    have kept : (x.captureFault addr k .queueWrite).writeQueue = s.writeQueue :=
      (congrArg State.writeQueue rest :).trans queue
    refine ⟨((congrArg State.part rest :).trans part).trans faulted, ?_, (congrArg State.writing rest :).trans free,
      (congrArg State.retry rest :).trans retry, (congrArg State.hostMem rest :).trans mem, ?_, fun _ => kept, fresh,
      fun set => ?_⟩
    · rw [if_pos faulted]
      exact (congrArg State.resume rest :).trans resume
    · rw [kept]
    · obtain ⟨addr, kind, source, multiple⟩ := again set
      exact ⟨addr.trans old.1, kind.trans old.2.1, source.trans old.2.2, multiple⟩
  · have fault := x.takeFault_works (part ▸ PartState.works idle faulted) addr k .queueWrite
    refine ⟨fault.part, ?_, (congrArg State.writing fault.rest :).trans free, (congrArg State.retry fault.rest :).trans retry,
      (congrArg State.hostMem fault.rest :).trans mem, queue ▸ fault.kept, fun ⟨m, steps, more, head⟩ => ?_,
      fun clear => ?_, fun set => ?_⟩
    · rw [if_neg faulted]
      exact fault.resume.trans (congrArg some part)
    · have waits : ∀ y : State, y.writing = none → y.writeQueue = s.writeQueue → y.statusWaiting = true := fun y hy hq => by
        rw [State.statusWaiting_idle hy, hq, head]
        rfl
      have entered : x.takeFault addr k .queueWrite =
          ({ x.captureFault addr k .queueWrite with part := .faulted, resume := some s.part } : State).queueStatus := by
        have works := PartState.works idle faulted
        have part' : (x.captureFault addr k .queueWrite).part = s.part := (congrArg State.part rest :).trans part
        unfold State.takeFault State.enterFaulted
        rw [part']
        simp only [List.mem_cons, List.not_mem_nil, or_false] at works
        rcases works with h | h | h <;> rw [h] <;> rfl
      have free' := (congrArg State.writing rest :).trans free
      have queue' := (congrArg State.writeQueue rest :).trans queue
      rw [entered]
      exact (congrArg State.writeQueue (State.queueStatus_waiting (waits _ (by exact free') (by exact queue')))).trans queue'
    · obtain ⟨addr, kind, source, multiple, _⟩ := fault.captured (notices ▸ clear)
      exact ⟨addr, kind, source, multiple⟩
    · obtain ⟨multiple, _, addr, kind, source⟩ := fault.again (notices ▸ set)
      exact ⟨addr.trans old.1, kind.trans old.2.1, source.trans old.2.2, multiple⟩

/-! ## The head that counts as not begun (R193) -/

theorem State.unbegin_plain {s : State} {q : QEntry} {rest : List QEntry} (h : s.writeQueue = q :: rest)
    (plain : q.kind.isStatus = false) : s.unbegin = s := by
  obtain ⟨kind, steps⟩ := q
  unfold State.unbegin
  rw [h]
  cases kind with
  | status m => exact Bool.noConfusion plain
  | taken | result | done | watch | alloc | collapse | release | clear => rfl

theorem foldl_markOr {rest : List QEntry} (h : ∀ x ∈ rest, x.kind.isStatus = false) (m : StatusMark) :
    rest.foldl QEntry.markOr m = m := by
  induction rest generalizing m with
  | nil => rfl
  | cons q qs ih =>
    obtain ⟨plain, later⟩ := List.forall_mem_cons.1 h
    obtain ⟨kind, steps⟩ := q
    have here : QEntry.markOr m ⟨kind, steps⟩ = m := by
      cases kind with
      | status x => exact Bool.noConfusion plain
      | taken | result | done | watch | alloc | collapse | release | clear => rfl
    rw [List.foldl_cons, here, ih later]

theorem State.unbegin_status {s : State} {m : StatusMark} {steps : List WStep} {rest : List QEntry}
    (h : s.writeQueue = ⟨.status m, steps⟩ :: rest) : s.unbegin = { s with
      writeQueue := ⟨.status (rest.foldl QEntry.markOr m), steps⟩ :: rest.filter fun q => !q.kind.isStatus } := by
  unfold State.unbegin
  rw [h]

/-! ## The landing of an entry (R140, R185, R193) -/

/-- The state in which an entry that has landed has left the queue. -/
def State.popped (s : State) (steps : List WStep) (rest : List QEntry) : State :=
  { s with writing := none, writeQueue := rest, hostMem := landAll steps s.hostMem }

theorem queueWrite_lands {s : State} {steps : List WStep} {q : QEntry} {rest : List QEntry}
    (hw : s.writing = some (.queue steps)) (hq : s.writeQueue = q :: rest)
    (inside : ∀ w ∈ steps, s.inWindow w.addr w.bytes.length = true) :
    exec (.queueWriteDone none) s = .next (((s.popped steps rest).entryLands q.kind).checkRunning.checkQuiesce) := by
  change Host.Outcome.next (s.entryEnds none) = _
  unfold State.entryEnds
  rw [hw]
  dsimp only
  rw [State.landSteps_done steps s inside]
  dsimp only
  unfold State.headLands
  dsimp only
  rw [hq]
  rfl

theorem queueWrite_faults {s x : State} {steps : List WStep} {err : Option Nat} {addr : Nat} {k : FaultKind}
    (hw : s.writing = some (.queue steps)) (h : s.landSteps err steps = (x, .fault addr k)) :
    exec (.queueWriteDone err) s = .next (x.unbegin.queueFault addr k) := by
  change Host.Outcome.next (s.entryEnds err) = _
  unfold State.entryEnds
  rw [hw]
  dsimp only
  rw [h]

/-- What an entry that is no DONE word brings about, where no entry to IDLE waits for it. -/
theorem State.entryLands_plain {x : State} {k : QKind}
    (h : k ∈ [QKind.taken, .result, .watch, .collapse, .release, .clear, .alloc, .status .plain, .status .idle] ∨
      (k = .status .loading ∧ x.loading = none))
    (idle : k = .status .idle → ¬(x.part = .quiescing ∧ x.writeQueue = [] ∧ x.contexts = [])) : ∃ messages,
    x.entryLands k = { x with
      notices := if k = .alloc then x.notices ||| Notice.discrepancy else x.notices,
      statusGen := if k.isStatus = true then x.statusGen + 2 else x.statusGen, messages := messages } := by
  simp only [List.mem_cons, List.not_mem_nil, or_false] at h
  rcases h with (rfl | rfl | rfl | rfl | rfl | rfl | rfl | rfl | rfl) | ⟨rfl, none⟩
  case inl.inr.inr.inr.inr.inr.inr.inr.inr => exact ⟨x.messages, if_neg (idle rfl)⟩
  case inr =>
    refine ⟨x.messages, ?_⟩
    change State.loadingStatus _ = _
    unfold State.loadingStatus
    dsimp only
    rw [none]
    rfl
  all_goals exact ⟨_, rfl⟩

/-- A part that leaves QUIESCING, or has its IDLE entry queued, where nothing waits any more (R185). -/
theorem State.checkQuiesce_empty {s : State} (part : s.part = .quiescing) (contexts : s.contexts = [])
    (queue : s.writeQueue = []) (idle : s.writing = none) :
    s.checkQuiesce = if s.accepted then { s with writeQueue := [⟨.status .idle, []⟩], spacing := some (msec 10) }
      else { s with part := .idle, dirty := [], statusDue := false, spacing := none } := by
  unfold State.checkQuiesce
  rw [if_pos ⟨part, contexts, queue⟩]
  have waits : s.statusWaiting = false := by
    rw [State.statusWaiting_idle idle, queue]
    rfl
  refine if_congr Iff.rfl ?_ rfl
  unfold State.queueMarked
  rw [waits, if_neg Bool.false_ne_true]
  unfold State.pushEntry
  rw [queue]
  rfl

/-- The state that an entry other than a DONE word leaves as it lands. -/
def State.entryLanded (s : State) (steps : List WStep) (k : QKind) (rest : List QEntry) : State :=
  { s with
    writing := none, writeQueue := rest,
    hostMem := steps.foldl (fun m w => Memory.write m w.addr w.bytes) s.hostMem,
    notices := if k = .alloc then s.notices ||| Notice.discrepancy else s.notices,
    statusGen := if k.isStatus = true then s.statusGen + 2 else s.statusGen }

/-- The landing of an entry that is no DONE word, up to the tests for the ends of LOADING and QUIESCING. -/
theorem queueWrite_plain {s : State} {steps : List WStep} {q : QEntry} {rest : List QEntry}
    (hw : s.writing = some (.queue steps)) (hq : s.writeQueue = q :: rest)
    (inside : ∀ w ∈ steps, s.inWindow w.addr w.bytes.length = true)
    (kind : q.kind ∈ [QKind.taken, .result, .watch, .collapse, .release, .clear, .alloc, .status .plain, .status .idle] ∨
      (q.kind = .status .loading ∧ s.loading = none))
    (idle : q.kind = .status .idle → ¬(s.part = .quiescing ∧ rest = [] ∧ s.contexts = [])) : ∃ u : State,
    { u with messages := s.messages } = s.entryLanded steps q.kind rest ∧
      exec (.queueWriteDone none) s = .next u.checkRunning.checkQuiesce := by
  obtain ⟨messages, lands⟩ := State.entryLands_plain (x := s.popped steps rest) kind idle
  exact ⟨_, rfl, (queueWrite_lands hw hq inside).trans
    (congrArg (fun x : State => Host.Outcome.next x.checkRunning.checkQuiesce) lands)⟩

/-- A write queue entry lands in every part state (R140, R184, R185). -/
theorem queueWrite_done {s : State} {steps : List WStep} {q : QEntry} {rest : List QEntry}
    (hw : s.writing = some (.queue steps)) (hq : s.writeQueue = q :: rest)
    (inside : ∀ w ∈ steps, s.inWindow w.addr w.bytes.length = true)
    (kind : q.kind ∈ [QKind.taken, .result, .watch, .collapse, .release, .clear, .alloc, .status .plain, .status .idle] ∨
      (q.kind = .status .loading ∧ s.loading = none)) :
    ((s.part = .loading → s.loading ≠ some (.completing [] true) ∨ ∃ x ∈ rest, x.kind = .clear) →
      (s.part = .quiescing → s.contexts ≠ [] ∨ rest ≠ []) →
      ∃ t, exec (.queueWriteDone none) s = .next t ∧ { t with messages := s.messages } = s.entryLanded steps q.kind rest) ∧
    (s.part = .loading → s.loading = some (.completing [] true) → (∀ x ∈ rest, x.kind ≠ .clear) →
      ∃ t, exec (.queueWriteDone none) s = .next t ∧ t.part = .running ∧ t.loading = none ∧ rest <+: t.writeQueue ∧
        (s.accepted = true → t.statusWaiting = true) ∧
        { t with messages := s.messages, part := s.part, loading := s.loading, writeQueue := rest,
                 spacing := s.spacing } = s.entryLanded steps q.kind rest) ∧
    (s.part = .quiescing → s.contexts = [] → rest = [] → q.kind ≠ .status .idle →
      ∃ t, exec (.queueWriteDone none) s = .next t ∧
        (s.accepted = true → t.writeQueue = [⟨.status .idle, []⟩] ∧ t.spacing = some 10000000 ∧
          { t with messages := s.messages, writeQueue := [], spacing := s.spacing } = s.entryLanded steps q.kind rest) ∧
        (s.accepted = false → { t with messages := s.messages } =
          { s.entryLanded steps q.kind rest with part := .idle, dirty := [], statusDue := false, spacing := none })) := by
  have lands := queueWrite_plain hw hq inside kind
  obtain ⟨y, hy⟩ : ∃ y, y = s.entryLanded steps q.kind rest := ⟨_, rfl⟩
  have fields : ∀ {u : State}, { u with messages := s.messages } = y → u.part = s.part ∧ u.loading = s.loading ∧
      u.contexts = s.contexts ∧ u.writeQueue = rest ∧ u.writing = none ∧ u.accepted = s.accepted ∧
      u.spacing = s.spacing := fun {u} h => by
    rw [hy] at h
    exact ⟨(congrArg State.part h :), (congrArg State.loading h :), (congrArg State.contexts h :),
      (congrArg State.writeQueue h :), (congrArg State.writing h :), (congrArg State.accepted h :),
      (congrArg State.spacing h :)⟩
  rw [← hy] at lands ⊢
  refine ⟨fun working waiting => ?_, fun hp hl clear => ?_, fun hp hc hr noIdle => ?_⟩
  · obtain ⟨u, same, e⟩ := lands fun _ ⟨hp, hr, hc⟩ => (waiting hp).elim (fun h => h hc) fun h => h hr
    obtain ⟨part, loading, contexts, queue, _⟩ := fields same
    have running : u.checkRunning = u := State.checkRunning_still fun hp hl => by
      obtain other | clear := working (part.symm.trans hp)
      · exact absurd (loading.symm.trans hl) other
      · exact queue.symm ▸ clear
    have still : u.checkQuiesce = u := State.checkQuiesce_waits (by
      by_cases hp : s.part = .quiescing
      · exact .inr (by rw [contexts, queue]; exact waiting hp)
      · exact .inl fun x => hp (part.symm.trans x))
    exact ⟨u, by rw [e, running, still], same⟩
  · obtain ⟨u, same, e⟩ := lands fun _ ⟨quiescing, _⟩ => absurd (hp.symm.trans quiescing) (by decide)
    obtain ⟨part, loading, _, queue, free, accepted, spacing⟩ := fields same
    have runs := State.checkRunning_runs (part.trans hp) (loading.trans hl) (queue.symm ▸ clear)
    rw [State.checkQuiesce_waits (.inl (by rw [runs.part]; decide))] at e
    refine ⟨_, e, runs.part, runs.loading, queue ▸ runs.queue, fun a => runs.waits free (accepted.trans a), ?_⟩
    rw [← same, ← part, ← loading, ← queue, ← spacing]
    exact (congrArg (fun x : State => { x with messages := s.messages }) runs.rest :)
  · obtain ⟨u, same, e⟩ := lands fun k => absurd k noIdle
    obtain ⟨part, _, contexts, queue, free, accepted, spacing⟩ := fields same
    have running : u.checkRunning = u :=
      State.checkRunning_still fun loads _ => absurd ((part.symm.trans loads).symm.trans hp) (by decide)
    rw [running, State.checkQuiesce_empty (part.trans hp) (contexts.trans hc) (queue.trans hr) free] at e
    refine ⟨_, e, fun a => ?_, fun a => ?_⟩
    · rw [if_pos (accepted.trans a)]
      refine ⟨rfl, rfl, ?_⟩
      rw [← same, ← spacing]
      exact (congrArg (fun q => ({ u with messages := s.messages, writeQueue := q } : State)) (queue.trans hr).symm :)
    · rw [if_neg (by rw [accepted, a]; exact Bool.false_ne_true), ← same]

/-- A step of a write queue entry faults, with the entry still at the head of the queue (R140, R190, R193). -/
theorem queueWrite_fault {s : State} {q : QEntry} {rest : List QEntry} {before : List WStep} {w : WStep}
    {after : List WStep} {err : Option Nat} {k : FaultKind} (hw : s.writing = some (.queue (before ++ w :: after)))
    (hq : s.writeQueue = q :: rest) (idle : s.part ≠ .idle)
    (inside : ∀ x ∈ before, s.inWindow x.addr x.bytes.length = true)
    (why : (k = .writeError ∧ err = some before.length ∧ s.inWindow w.addr w.bytes.length = true) ∨
      (k = .window ∧ (∀ n, err = some n → before.length ≤ n) ∧ s.inWindow w.addr w.bytes.length = false)) :
    ∃ t, exec (.queueWriteDone err) s = .next t ∧ t.part = .faulted ∧
      t.resume = (if s.part = .faulted then s.resume else some s.part) ∧ t.writing = none ∧ t.retry = some .queue ∧
      t.hostMem = before.foldl (fun m w => Memory.write m w.addr w.bytes) s.hostMem ∧
      (q.kind.isStatus = false → (q :: rest) <+: t.writeQueue) ∧
      (∀ m, q.kind = .status m → ∃ m', t.writeQueue = ⟨.status m', q.steps⟩ :: rest.filter (fun x => !x.kind.isStatus) ∧
        ((∀ x ∈ rest, x.kind.isStatus = false) → m' = m)) ∧
      (s.notices &&& Notice.busFault = 0 → t.faultAddr = BitVec.ofNat 64 w.addr ∧
        t.faultKind = k ∧ t.faultSource = .queueWrite ∧ t.multiple = false) ∧
      (s.notices &&& Notice.busFault ≠ 0 → t.faultAddr = s.faultAddr ∧ t.faultKind = s.faultKind ∧
        t.faultSource = s.faultSource ∧ t.multiple = true) := by
  have faults := State.landSteps_fault w after k before s err inside why
  obtain ⟨x, hx⟩ : ∃ x : State, x = { s with hostMem := landAll before s.hostMem } := ⟨_, rfl⟩
  rw [← hx] at faults
  have queue : x.writeQueue = q :: rest := by rw [hx]; exact hq
  have rest' : { x.unbegin with writeQueue := s.writeQueue, hostMem := s.hostMem } = s ∧
      x.unbegin.hostMem = landAll before s.hostMem := by
    unfold State.unbegin
    split <;> rw [hx] <;> exact ⟨rfl, rfl⟩
  obtain ⟨frame, mem⟩ := rest'
  have plain : q.kind.isStatus = false → x.unbegin.writeQueue = q :: rest := fun h => by
    rw [State.unbegin_plain queue h, queue]
  have status : ∀ m, q.kind = .status m → x.unbegin.writeQueue =
      ⟨.status (rest.foldl QEntry.markOr m), q.steps⟩ :: rest.filter fun q => !q.kind.isStatus := fun m hm => by
    obtain ⟨kind, steps⟩ := q
    obtain rfl : kind = .status m := hm
    rw [State.unbegin_status queue]
  have part : x.unbegin.part = s.part := (congrArg State.part frame :)
  have notices : x.unbegin.notices = s.notices := (congrArg State.notices frame :)
  have fault := State.queueFault_faulted (s := x.unbegin) (part ▸ idle) w.addr k
  refine ⟨_, queueWrite_faults hw faults, fault.part, ?_, fault.writing, fault.retry, fault.mem.trans mem, fun h => ?_,
    fun m hm => ?_, fun clear => fault.captured (notices.symm ▸ clear), fun set => ?_⟩
  · have resume : x.unbegin.resume = s.resume := (congrArg State.resume frame :)
    rw [fault.resume, part, resume]
  · exact plain h ▸ fault.queue
  · exact ⟨_, (fault.same ⟨_, _, _, status m hm⟩).trans (status m hm), fun h => foldl_markOr h m⟩
  · obtain ⟨addr, kind, source, multiple⟩ := fault.again (notices.symm ▸ set)
    exact ⟨addr.trans (congrArg State.faultAddr frame :), kind.trans (congrArg State.faultKind frame :),
      source.trans (congrArg State.faultSource frame :), multiple⟩

/-- A status block entry lands, marked for LOADING or for IDLE (R184, R185). -/
theorem queueWrite_marked {s : State} {steps old : List WStep} {m : StatusMark} {rest : List QEntry}
    (hw : s.writing = some (.queue steps)) (hq : s.writeQueue = ⟨.status m, old⟩ :: rest)
    (inside : ∀ w ∈ steps, s.inWindow w.addr w.bytes.length = true) :
    (∀ ls landed, m = .loading → s.loading = some (.completing ls landed) → exec (.queueWriteDone none) s = .next
      ({ s.entryLanded steps (.status m) rest with loading := some (.completing ls true) } : State).checkRunning.checkQuiesce) ∧
    (m = .idle → rest = [] → s.part = .quiescing → s.contexts = [] → exec (.queueWriteDone none) s = .next
      ({ s.entryLanded steps (.status m) rest with
        part := .idle, dirty := [], statusDue := false, spacing := none } : State).checkRunning.checkQuiesce) := by
  have done := queueWrite_lands hw hq inside
  refine ⟨fun ls landed hm hl => ?_, fun hm hr hp hc => ?_⟩
  · subst hm
    refine done.trans (congrArg (fun x : State => Host.Outcome.next x.checkRunning.checkQuiesce) ?_)
    change State.loadingStatus _ = _
    unfold State.loadingStatus State.popped
    dsimp only
    rw [hl]
    rfl
  · subst hm
    refine done.trans (congrArg (fun x : State => Host.Outcome.next x.checkRunning.checkQuiesce) ?_)
    exact if_pos ⟨hp, hr, hc⟩

/-- Settles O35. -/
theorem queueEntriesLandWhole : Obligations.QueueEntriesLandWhole := by
  refine ⟨fun s steps q rest hw hq => ⟨fun inside kind => queueWrite_done hw hq inside kind,
    fun before w after err k idle hsteps inside why => ?_⟩,
    fun s err => ⟨fun w hw => ?_, fun noQueue noStep => ?_⟩, fun s steps m old rest hw hq inside => ?_⟩
  · subst hsteps
    exact queueWrite_fault hw hq idle inside why
  · change Host.Outcome.next (s.entryEnds err) = _
    unfold State.entryEnds
    rw [hw]
    dsimp only
    split <;> rfl
  · change Host.Outcome.next (s.entryEnds err) = _
    unfold State.entryEnds
    split
    · next h => exact absurd h (noQueue _)
    · next h => exact absurd h (noStep _)
    all_goals rfl
  · obtain ⟨loads, idles⟩ := queueWrite_marked hw hq inside
    intro s'
    obtain ⟨y, hy⟩ : ∃ y, y = s.entryLanded steps (.status m) rest := ⟨_, rfl⟩
    have same : y = s' := hy
    rw [← hy] at loads idles
    have part : y.part = s.part := by rw [hy]; rfl
    have queue : y.writeQueue = rest := by rw [hy]; rfl
    have free : y.writing = none := by rw [hy]; rfl
    have accepted : y.accepted = s.accepted := by rw [hy]; rfl
    have spacing : y.spacing = s.spacing := by rw [hy]; rfl
    have loading : y.loading = s.loading := by rw [hy]; rfl
    refine ⟨fun ls landed hm hl => ⟨fun hp hls clear => ?_, fun hp waits => ?_⟩, fun hm hr hp hc => ?_⟩
    · have e := loads ls landed hm hl
      obtain ⟨x, hx⟩ : ∃ x : State, x = { y with loading := some (.completing ls true) } := ⟨_, rfl⟩
      rw [← hx] at e
      have runs := State.checkRunning_runs (s := x) (by rw [hx]; exact part.trans hp) (by rw [hx, hls])
        (by rw [hx]; exact queue.symm ▸ clear)
      rw [State.checkQuiesce_waits (.inl (by rw [runs.part]; decide))] at e
      refine ⟨_, e, runs.part, runs.loading, ?_, fun a => runs.waits (by rw [hx]; exact free)
        (by rw [hx]; exact accepted.trans a), ?_⟩
      · have kept := runs.queue
        rw [hx] at kept ⊢
        exact queue ▸ kept
      · have part' : x.part = s.part := by rw [hx]; exact part
        have queue' : x.writeQueue = rest := by rw [hx]; exact queue
        have spacing' : x.spacing = s.spacing := by rw [hx]; exact spacing
        have back : { x with loading := s.loading } = y := by rw [hx, ← loading]
        rw [← same, ← back, ← part', ← queue', ← spacing']
        exact (congrArg (fun z : State => { z with loading := s.loading }) runs.rest :)
    · have e := loads ls landed hm hl
      obtain ⟨x, hx⟩ : ∃ x : State, x = { y with loading := some (.completing ls true) } := ⟨_, rfl⟩
      rw [← hx] at e
      have running : x.checkRunning = x := State.checkRunning_still fun loads now => by
        rw [hx] at loads now ⊢
        obtain ⟨empty, _⟩ := LoadStage.completing.inj (Option.some.inj now)
        exact queue.symm ▸ (waits (part.symm.trans loads)).resolve_left fun more => more empty
      have still : x.checkQuiesce = x := State.checkQuiesce_waits (.inl (by rw [hx]; exact part ▸ hp))
      rw [e, running, still, hx, same]
    · rw [idles hm hr hp hc]
      obtain ⟨x, hx⟩ : ∃ x : State, x = { y with part := .idle, dirty := [], statusDue := false, spacing := none } :=
        ⟨_, rfl⟩
      have part' : x.part = .idle := by rw [hx]
      have running : x.checkRunning = x := State.checkRunning_still fun loads _ => absurd (part'.symm.trans loads) (by decide)
      have still : x.checkQuiesce = x := State.checkQuiesce_waits (.inl (by rw [part']; decide))
      rw [← hx, running, still, hx, same]

end Sys2Proof.Machine
end


section
/-! PROOFS. The landing of a DONE word: its context, the FENCEs that wait for it, the coalescing of ORDER_DONE. -/

namespace Sys2Proof.Machine

-- One declaration at a time: the threads of a parallel elaboration exceed the memory of the check.
set_option Elab.async false

/-! ## The count, the context and the FENCEs (R155, R179) -/

/-- A DONE word has been counted. -/
def State.doneCounted (s : State) : State := { s with ordersCompleted := s.ordersCompleted + 1 }.statusChange

/-- Its context is free, and no FENCE waits for it. -/
def State.doneFreed (s : State) (ref : Option Word) : State :=
  match ref with
  | some q => (s.doneCounted.freeCtx q).releaseFences q
  | none => s.doneCounted

theorem State.doneLands_eq (s : State) (ref : Option Word) (notify : Bool) :
    s.doneLands ref notify = (s.doneFreed ref).coalesceOne notify := rfl

/-- What a take's leaving makes of a context. -/
def Ctx.leftBy (ref : Option Word) (c : Ctx) : Ctx :=
  match ref with
  | some q => c.released q
  | none => c

/-- The writes that it brings a FENCE to queue. -/
def State.leftEntries (s : State) (ref : Option Word) (c : Ctx) : List QEntry :=
  match ref with
  | some q => s.fenceEntries q c
  | none => []

/-- The contexts that stay in flight. -/
def State.staying (s : State) (ref : Option Word) : List Ctx := s.contexts.filter fun c => !decide (ref = some c.seq)

theorem State.mem_staying {s : State} {ref : Option Word} {c : Ctx} :
    c ∈ s.staying ref ↔ c ∈ s.contexts ∧ ref ≠ some c.seq := by
  unfold State.staying
  rw [List.mem_filter]
  simp

/-- All that a DONE word does before its coalescing. -/
structure DoneFreed (ref : Option Word) (s y : State) : Prop where
  contexts : y.contexts = (s.staying ref).map (Ctx.leftBy ref)
  queue : y.writeQueue = s.doneCounted.writeQueue ++ (s.staying ref).flatMap (s.leftEntries ref)
  count : y.ordersCompleted = s.ordersCompleted + 1
  spacing : y.spacing = s.doneCounted.spacing
  rest : { y with contexts := s.contexts, writeQueue := s.writeQueue, statusDue := s.statusDue, spacing := s.spacing,
                  ordersCompleted := s.ordersCompleted } = s

theorem State.doneFreed_freed {s : State} (h : s.seqsOk) (ref : Option Word) : DoneFreed ref s (s.doneFreed ref) := by
  have only := State.statusChange_only { s with ordersCompleted := s.ordersCompleted + 1 }
  have count : s.doneCounted.ordersCompleted = s.ordersCompleted + 1 := (congrArg State.ordersCompleted only.rest :)
  have contexts : s.doneCounted.contexts = s.contexts := (congrArg State.contexts only.rest :)
  have anchor : s.doneCounted.anchor = s.anchor := (congrArg State.anchor only.rest :)
  have rest : { s.doneCounted with
      writeQueue := s.writeQueue, statusDue := s.statusDue, spacing := s.spacing,
      ordersCompleted := s.ordersCompleted } = s :=
    (congrArg (fun x : State => { x with ordersCompleted := s.ordersCompleted }) only.rest :)
  cases ref with
  | none =>
    have all : s.staying none = s.contexts := List.filter_eq_self.2 fun c _ => by simp
    refine ⟨?_, ?_, count, rfl, (congrArg (fun x : State => { x with contexts := s.contexts }) rest :)⟩
    · rw [all]
      exact contexts.trans (List.map_id _).symm
    · have none : (s.staying none).flatMap (s.leftEntries none) = [] := List.flatMap_eq_nil_iff.2 fun _ _ => rfl
      rw [none, List.append_nil]
      rfl
  | some q =>
    have gone : (s.doneCounted.freeCtx q).contexts = s.staying (some q) := by
      rw [State.freeCtx_contexts, contexts]
      unfold State.staying
      refine List.filter_congr fun c _ => ?_
      simp [eq_comm]
    have seqs : (s.doneCounted.freeCtx q).seqsOk := by
      unfold State.seqsOk
      rw [gone]
      exact h.sublist (List.filter_sublist.map _)
    have released := (s.doneCounted.freeCtx q).releaseFences_eq seqs q
    rw [gone, State.fenceEntries_congr (s := s) (t := s.doneCounted.freeCtx q) anchor] at released
    change DoneFreed (some q) s ((s.doneCounted.freeCtx q).releaseFences q)
    rw [released]
    exact ⟨rfl, rfl, count, rfl, (congrArg (fun x : State => { x with contexts := s.contexts }) rest :)⟩

theorem State.leftEntries_kind {s : State} {ref : Option Word} {c : Ctx} {e : QEntry} (h : e ∈ s.leftEntries ref c) :
    e.kind ≠ .clear := by
  unfold State.leftEntries at h
  split at h
  · unfold State.fenceEntries at h
    split at h
    · split at h
      · simp only [List.mem_cons, List.not_mem_nil, or_false] at h
        obtain rfl | rfl := h <;> exact nofun
      · exact absurd h List.not_mem_nil
    · exact absurd h List.not_mem_nil
  · exact absurd h List.not_mem_nil

/-- A DONE word brings no clearing write to the queue. -/
theorem DoneFreed.clears {ref : Option Word} {s y : State} (h : DoneFreed ref s y) :
    (∃ q ∈ y.writeQueue, q.kind = .clear) ↔ ∃ q ∈ s.writeQueue, q.kind = .clear := by
  have only := State.statusChange_only { s with ordersCompleted := s.ordersCompleted + 1 }
  rw [h.queue]
  constructor
  · rintro ⟨q, hq, clear⟩
    obtain old | new := List.mem_append.1 hq
    · obtain e | e := only.queue
      · exact ⟨q, e ▸ old, clear⟩
      · obtain old | status := List.mem_append.1 (e ▸ old)
        · exact ⟨q, old, clear⟩
        · rw [List.mem_singleton.1 status] at clear
          exact nomatch clear
    · obtain ⟨c, _, he⟩ := List.mem_flatMap.1 new
      exact absurd clear (State.leftEntries_kind he)
  · rintro ⟨q, hq, clear⟩
    exact ⟨q, List.mem_append_left _ (only.queueKept.subset hq), clear⟩

/-! ## The coalescing (R192) -/

theorem State.coalesceOne_spec {s : State} {a : Anchor} (ha : s.anchor = some a) (notify : Bool) :
    (if notify = true ∨ a.trigger ≤ s.coalesce + 1 then
      (s.coalesceOne notify).coalesce = 0 ∧ (s.coalesceOne notify).holdoff = none ∧
        (s.coalesceOne notify).notices = s.notices ||| Notice.orderDone
     else if a.holdoff = 0 then (s.coalesceOne notify).coalesce = 0 ∧
        (s.coalesceOne notify).notices = s.notices ||| Notice.orderDone
     else (s.coalesceOne notify).coalesce = s.coalesce + 1 ∧ (s.coalesceOne notify).holdoff = some (a.holdoff * 100000) ∧
        (s.coalesceOne notify).notices = s.notices) ∧
    { s.coalesceOne notify with coalesce := s.coalesce, holdoff := s.holdoff, notices := s.notices, messages := s.messages } =
      s := by
  have trigger : s.trigger = a.trigger := by unfold State.trigger; rw [ha]; rfl
  have time : s.holdoffTime = a.holdoff * 100000 := by unfold State.holdoffTime; rw [ha]; rfl
  have zero : s.holdoffTime = 0 ↔ a.holdoff = 0 := by rw [time]; omega
  unfold State.coalesceOne
  rw [trigger]
  by_cases now : notify = true ∨ a.trigger ≤ s.coalesce + 1
  · rw [if_pos now, if_pos now]
    exact ⟨⟨rfl, rfl, rfl⟩, rfl⟩
  rw [if_neg now, if_neg now]
  by_cases none : a.holdoff = 0
  · rw [if_pos none, if_pos (zero.2 none)]
    exact ⟨⟨rfl, rfl⟩, rfl⟩
  · rw [if_neg none, if_neg fun x => none (zero.1 x), time]
    exact ⟨⟨rfl, rfl, rfl⟩, rfl⟩

/-! ## The ends of QUIESCING and LOADING after it (R184, R185) -/

theorem State.checkQuiesce_rest (s : State) (idle : s.writing = none) :
    s.writeQueue <+: s.checkQuiesce.writeQueue ∧
    { s.checkQuiesce with part := s.part, dirty := s.dirty, statusDue := s.statusDue, spacing := s.spacing,
                          writeQueue := s.writeQueue } = s := by
  by_cases h : s.part = .quiescing ∧ s.contexts = [] ∧ s.writeQueue = []
  · obtain ⟨part, contexts, queue⟩ := h
    rw [State.checkQuiesce_empty part contexts queue idle, queue]
    refine ⟨List.nil_prefix, ?_⟩
    split <;> rw [← queue]
  · have still : s.checkQuiesce = s := if_neg h
    rw [still]
    exact ⟨List.prefix_refl _, rfl⟩

/-- The status block of a part in QUIESCING whose queue is empty, after a count (R193). -/
theorem State.doneCounted_empty {s : State} (part : s.part = .quiescing) (accepted : s.accepted = true)
    (queue : s.writeQueue = []) (idle : s.writing = none) :
    s.doneCounted.writeQueue = if s.spacing = none then [⟨.status .plain, []⟩] else [] := by
  obtain ⟨x, hx⟩ : ∃ x : State, x = { s with ordersCompleted := s.ordersCompleted + 1, statusDue := true } := ⟨_, rfl⟩
  have changed : s.doneCounted = if s.spacing.isNone then x.queueStatus else x := by
    rw [hx]
    exact if_pos ⟨accepted, by rw [part]; decide⟩
  have quiet : x.statusWaiting = false := by
    rw [State.statusWaiting_idle (by rw [hx]; exact idle), hx]
    dsimp only
    rw [queue]
    rfl
  have queued : x.queueStatus = { x.pushEntry ⟨.status .plain, []⟩ with spacing := some (msec 10) } :=
    if_pos ⟨by rw [hx]; exact accepted, by rw [quiet]; exact Bool.false_ne_true⟩
  rw [changed]
  cases s.spacing with
  | none =>
    simp only [Option.isNone_none, if_true]
    rw [queued, hx]
    change s.writeQueue ++ _ = _
    rw [queue]
    rfl
  | some n =>
    simp only [Option.isNone_some, Bool.false_eq_true, if_false, reduceCtorEq]
    rw [hx]
    exact queue

/-- Settles O36. -/
theorem doneWordsFreeTheirContext : Obligations.DoneWordsFreeTheirContext := by
  intro s steps slot ref notify rest old a hw hq ha hs inside
  have done := queueWrite_lands hw hq inside
  obtain ⟨x, hx⟩ : ∃ x, x = s.popped steps rest := ⟨_, rfl⟩
  have lands : (s.popped steps rest).entryLands (.done slot ref notify) = (x.doneFreed ref).coalesceOne notify := by
    rw [hx]
    rfl
  rw [lands] at done
  have back : { x with writing := s.writing, writeQueue := s.writeQueue, hostMem := s.hostMem } = s := by rw [hx]; rfl
  have free : x.writing = none := by rw [hx]; rfl
  have queue : x.writeQueue = rest := by rw [hx]; rfl
  have mem : x.hostMem = steps.foldl (fun m w => Memory.write m w.addr w.bytes) s.hostMem := by rw [hx]; rfl
  have contexts : x.contexts = s.contexts := (congrArg State.contexts back :)
  have anchor : x.anchor = s.anchor := (congrArg State.anchor back :)
  have freed := State.doneFreed_freed (s := x) (by unfold State.seqsOk; rw [contexts]; exact hs) ref
  have staying : x.staying ref = s.staying ref := by unfold State.staying; rw [contexts]
  generalize x.doneFreed ref = u at done freed
  obtain ⟨coalesced, rest'⟩ := State.coalesceOne_spec (s := u)
    ((congrArg State.anchor freed.rest :).trans (anchor.trans ha)) notify
  generalize u.coalesceOne notify = y at done coalesced rest'
  have whole : ∀ {α : Type} (f : State → α),
      (∀ v : State, f { v with coalesce := u.coalesce, holdoff := u.holdoff, notices := u.notices, messages := u.messages } = f v) →
      (∀ v : State, f { v with
        contexts := x.contexts, writeQueue := x.writeQueue, statusDue := x.statusDue, spacing := x.spacing,
        ordersCompleted := x.ordersCompleted } = f v) → f y = f x := fun f h1 h2 =>
    (h1 y).symm.trans ((congrArg f rest').trans ((h2 u).symm.trans (congrArg f freed.rest)))
  have part : y.part = s.part := (whole State.part (fun _ => rfl) (fun _ => rfl)).trans (congrArg State.part back :)
  have loading : y.loading = s.loading :=
    (whole State.loading (fun _ => rfl) (fun _ => rfl)).trans (congrArg State.loading back :)
  have accepted : y.accepted = s.accepted :=
    (whole State.accepted (fun _ => rfl) (fun _ => rfl)).trans (congrArg State.accepted back :)
  have idle : y.writing = none := (whole State.writing (fun _ => rfl) (fun _ => rfl)).trans free
  have ycontexts : y.contexts = (s.staying ref).map (Ctx.leftBy ref) :=
    (congrArg State.contexts rest' :).trans (staying ▸ freed.contexts)
  have yqueue : y.writeQueue = x.doneCounted.writeQueue ++ (s.staying ref).flatMap (x.leftEntries ref) :=
    (congrArg State.writeQueue rest' :).trans (staying ▸ freed.queue)
  have kept : rest <+: y.writeQueue := by
    rw [yqueue, ← queue]
    exact (State.statusChange_only { x with ordersCompleted := x.ordersCompleted + 1 }).queueKept.trans
      (List.prefix_append _ _)
  have clears : (∃ q ∈ y.writeQueue, q.kind = .clear) ↔ ∃ q ∈ rest, q.kind = .clear := by
    have same : y.writeQueue = u.writeQueue := (congrArg State.writeQueue rest' :)
    rw [same, ← queue]
    exact freed.clears
  have still : ¬(s.part = .loading ∧ s.loading = some (.completing [] true) ∧ ∀ q ∈ rest, q.kind ≠ .clear) →
      y.checkRunning = y := fun no => State.checkRunning_still fun hp hl => clears.2 (by
    by_contra none
    exact no ⟨part.symm.trans hp, loading.symm.trans hl, fun q hq clear => none ⟨q, hq, clear⟩⟩)
  obtain ⟨kept1, rest1⟩ := y.checkRunning_rest
  have idle1 : y.checkRunning.writing = none := (congrArg State.writing rest1 :).trans idle
  obtain ⟨kept2, rest2⟩ := y.checkRunning.checkQuiesce_rest idle1
  have after : ∀ {α : Type} (f : State → α),
      (∀ v w : State, f { v with
        part := w.part, dirty := w.dirty, statusDue := w.statusDue, spacing := w.spacing, writeQueue := w.writeQueue } = f v) →
      (∀ v w : State, f { v with
        part := w.part, loading := w.loading, writeQueue := w.writeQueue, spacing := w.spacing } = f v) →
      f y.checkRunning.checkQuiesce = f y := fun f h1 h2 =>
    (h1 _ _).symm.trans ((congrArg f rest2).trans ((h2 _ _).symm.trans (congrArg f rest1)))
  have wait : ∀ c ∈ s.contexts, ref ≠ some c.seq → c.leftBy ref ∈ y.checkRunning.checkQuiesce.contexts := fun c hc hne => by
    rw [after State.contexts (fun _ _ => rfl) (fun _ _ => rfl), ycontexts]
    exact List.mem_map_of_mem (State.mem_staying.2 ⟨hc, hne⟩)
  have sub : y.writeQueue <+: y.checkRunning.checkQuiesce.writeQueue := kept1.trans kept2
  refine ⟨_, done, ?_, ?_, kept.trans sub, ?_, ?_, ?_, ?_, ?_, fun q hr d hd => ?_, fun d hd hne other => ?_,
    fun q hr d hd hne o left n fencing => ?_, ?_, fun hl hq => ?_, fun hl => ⟨fun waits => ?_, fun ends clear => ?_⟩,
    fun hq => ⟨fun waits => ?_, fun gone hrest => ?_⟩⟩
  · exact (after State.writing (fun _ _ => rfl) (fun _ _ => rfl)).trans idle
  · have count : y.ordersCompleted = x.ordersCompleted + 1 := (congrArg State.ordersCompleted rest' :).trans freed.count
    rw [after State.ordersCompleted (fun _ _ => rfl) (fun _ _ => rfl), count, hx]
    rfl
  · rw [after State.hostMem (fun _ _ => rfl) (fun _ _ => rfl), whole State.hostMem (fun _ => rfl) (fun _ => rfl), mem]
  · rw [after State.links (fun _ _ => rfl) (fun _ _ => rfl), whole State.links (fun _ => rfl) (fun _ => rfl)]
    exact (congrArg State.links back :)
  · rw [after State.log (fun _ _ => rfl) (fun _ _ => rfl), whole State.log (fun _ => rfl) (fun _ => rfl)]
    exact (congrArg State.log back :)
  · rw [after State.rows (fun _ _ => rfl) (fun _ _ => rfl), whole State.rows (fun _ => rfl) (fun _ => rfl)]
    exact (congrArg State.rows back :)
  · rw [after State.posted (fun _ _ => rfl) (fun _ _ => rfl), whole State.posted (fun _ => rfl) (fun _ => rfl)]
    exact (congrArg State.posted back :)
  · rw [after State.contexts (fun _ _ => rfl) (fun _ _ => rfl), ycontexts] at hd
    obtain ⟨c, hc, rfl⟩ := List.mem_map.1 hd
    obtain rfl := hr
    have seq : (c.leftBy (some q)).seq = c.seq := Ctx.released_seq q c
    rw [seq]
    exact fun e => (State.mem_staying.1 hc).2 (congrArg some e.symm)
  · have here := wait d hd hne
    have plain : d.leftBy ref = d := by
      unfold Ctx.leftBy
      split
      · exact Ctx.released_other other
      · rfl
    rwa [plain] at here
  · obtain rfl := hr
    have hne' : some q ≠ some d.seq := fun e => hne (Option.some.inj e).symm
    have here := wait d hd hne'
    change d.released q ∈ _ at here
    rw [Ctx.released_fence fencing] at here
    split
    · next all =>
      rw [if_pos all] at here
      refine ⟨here, sub.subset ?_⟩
      rw [yqueue]
      refine List.mem_append_right _ (List.mem_flatMap.2 ⟨d, State.mem_staying.2 ⟨hd, hne'⟩, ?_⟩)
      change _ ∈ x.fenceEntries q d
      rw [State.fenceEntries_congr anchor, State.fenceEntries_fence fencing, if_pos all]
      exact List.mem_cons_of_mem _ List.mem_cons_self
    · next some =>
      rw [if_neg some] at here
      exact here
  · have coalesce : u.coalesce = s.coalesce := (congrArg State.coalesce freed.rest :).trans (congrArg State.coalesce back :)
    have notices : u.notices = s.notices := (congrArg State.notices freed.rest :).trans (congrArg State.notices back :)
    rw [after State.coalesce (fun _ _ => rfl) (fun _ _ => rfl), after State.holdoff (fun _ _ => rfl) (fun _ _ => rfl),
      after State.notices (fun _ _ => rfl) (fun _ _ => rfl), ← coalesce, ← notices]
    exact coalesced
  · rw [still fun h => hl h.1, State.checkQuiesce_waits (.inl fun h => hq (part.symm.trans h)), part]
  · have no : ¬(s.part = .loading ∧ s.loading = some (.completing [] true) ∧ ∀ q ∈ rest, q.kind ≠ .clear) := by
      rintro ⟨_, ends, clear⟩
      obtain other | ⟨q, hq, k⟩ := waits
      · exact other ends
      · exact clear q hq k
    rw [still no, State.checkQuiesce_waits (.inl (by rw [part, hl]; decide))]
    exact ⟨part.trans hl, loading⟩
  · have runs := State.checkRunning_runs (part.trans hl) (loading.trans ends) fun q hq k => by
      obtain ⟨q, hq, k⟩ := clears.1 ⟨q, hq, k⟩
      exact clear q hq k
    rw [State.checkQuiesce_waits (.inl (by rw [runs.part]; decide))]
    exact ⟨runs.part, runs.loading, fun h => runs.waits idle (accepted.trans h)⟩
  · rw [still fun h => absurd (h.1.symm.trans hq) (by decide), State.checkQuiesce_waits (.inr ?_)]
    · exact part.trans hq
    · obtain ⟨d, hd, hne⟩ | more := waits
      · refine .inl fun empty => ?_
        rw [ycontexts] at empty
        exact absurd (State.mem_staying.2 ⟨hd, hne⟩) (List.map_eq_nil_iff.1 empty ▸ List.not_mem_nil)
      · exact .inr fun empty => more (List.prefix_nil.1 (empty ▸ kept))
  · have none : s.staying ref = [] := List.filter_eq_nil_iff.2 fun d hd => by simpa using gone d hd
    rw [none, List.map_nil] at ycontexts
    rw [none, List.flatMap_nil, List.append_nil] at yqueue
    have xpart : x.part = .quiescing := (congrArg State.part back :).trans hq
    have xaccepted : x.accepted = s.accepted := (congrArg State.accepted back :)
    have xspacing : x.spacing = s.spacing := (congrArg State.spacing back :)
    refine ⟨(after State.contexts (fun _ _ => rfl) (fun _ _ => rfl)).trans ycontexts, fun yes => ?_, fun no => ?_⟩
    · have counted := State.doneCounted_empty xpart (xaccepted.trans yes) (queue.trans hrest) free
      rw [← yqueue, xspacing] at counted
      rw [still fun h => absurd (h.1.symm.trans hq) (by decide)]
      by_cases hs : s.spacing = Option.none
      · rw [if_pos hs] at counted
        rw [State.checkQuiesce_waits (.inr (.inr (by rw [counted]; exact List.cons_ne_nil _ _))), if_pos hs]
        exact ⟨part.trans hq, counted⟩
      · rw [if_neg hs] at counted
        rw [State.checkQuiesce_empty (part.trans hq) ycontexts counted idle, if_pos (accepted.trans yes), if_neg hs]
        exact ⟨part.trans hq, rfl⟩
    · have counted : x.doneCounted.writeQueue = [] := by
        have quiet : x.doneCounted = { x with ordersCompleted := x.ordersCompleted + 1 } :=
          if_neg fun h => absurd (no.symm.trans (xaccepted.symm.trans h.1)) Bool.false_ne_true
        rw [quiet]
        exact queue.trans hrest
      rw [still fun h => absurd (h.1.symm.trans hq) (by decide),
        State.checkQuiesce_empty (part.trans hq) ycontexts (yqueue.trans counted) idle,
        if_neg (by rw [accepted, no]; exact Bool.false_ne_true)]
      exact ⟨rfl, yqueue.trans counted, rfl⟩

end Sys2Proof.Machine
end


section
/-! PROOFS. The Discrepancy Log Unit and the timers of reporting. -/

namespace Sys2Proof.Machine

-- One declaration at a time: the threads of a parallel elaboration exceed the memory of the check.
set_option Elab.async false

/-! ## The place of an entry of the held map (R136) -/

theorem placeOf_eq_some {α : Type} {test : α → Bool} {xs : List α} {n : Nat} {x : α} (at_ : xs[n]? = some x)
    (holds : test x = true) (first : ∀ k < n, ∀ y, xs[k]? = some y → test y = false) : placeOf test xs = some n := by
  induction xs generalizing n with
  | nil => simp at at_
  | cons y ys ih =>
    unfold placeOf
    cases n with
    | zero =>
      obtain rfl := Option.some.inj at_
      rw [if_pos holds]
    | succ n =>
      have no : ¬test y = true := by rw [first 0 (Nat.succ_pos n) y rfl]; exact Bool.false_ne_true
      rw [if_neg no, ih at_ fun k hk z hz => first (k + 1) (Nat.succ_lt_succ hk) z hz]
      rfl

theorem placeOf_eq_none {α : Type} {test : α → Bool} {xs : List α} (no : ∀ x ∈ xs, test x = false) :
    placeOf test xs = none := by
  cases found : placeOf test xs with
  | none => rfl
  | some n =>
    obtain ⟨⟨x, at_, holds⟩, _⟩ := placeOf_some found
    exact absurd (no x (List.mem_of_getElem? at_)) (holds ▸ Bool.noConfusion)

theorem heldBy_some {l : LinkId} {h : HeldRec} : heldBy l (some h) = true ↔ h.link = l := decide_eq_true_iff

theorem heldBy_false {l : LinkId} {x : Option HeldRec} (h : ∀ r, x = some r → r.link ≠ l) : heldBy l x = false := by
  cases x with
  | none => rfl
  | some r => exact decide_eq_false (h r rfl)

/-! ## What changes the held record count (R134) -/

theorem State.heldCount_held {s t : State} {n : Nat} {h k : HeldRec} (hn : s.log[n]? = some (some h))
    (ht : t.log = s.log.set n (some k)) : t.heldCount = s.heldCount := by
  obtain ⟨hlt, hget⟩ := List.getElem?_eq_some_iff.1 hn
  have one : 0 < s.log.countP (·.isSome) := by
    rw [List.countP_pos_iff]
    exact ⟨_, List.getElem_mem hlt, by rw [hget]; rfl⟩
  unfold State.heldCount
  rw [ht, ← List.countP_eq_length_filter, ← List.countP_eq_length_filter, List.countP_set hlt, hget]
  simp only [Option.isSome_some, if_true]
  omega

theorem State.heldCount_taken {s t : State} {n : Nat} {k : HeldRec} (hn : s.log[n]? = some none)
    (ht : t.log = s.log.set n (some k)) : t.heldCount ≠ s.heldCount := by
  obtain ⟨hlt, hget⟩ := List.getElem?_eq_some_iff.1 hn
  unfold State.heldCount
  rw [ht, ← List.countP_eq_length_filter, ← List.countP_eq_length_filter, List.countP_set hlt, hget]
  simp only [Option.isSome_some, Option.isSome_none, if_true, Bool.false_eq_true, if_false]
  omega

/-! ## The three ends of a discrepancy (R137 to R139) -/

/-- A link's HELD record takes the discrepancy, and the status block stays as it is (R137). -/
theorem State.logDiscrepancy_held {s : State} {l : LinkId} (d : Discrepancy) {n : Nat} {h : HeldRec}
    (at_ : s.log[n]? = some (some h)) (own : h.link = l)
    (first : ∀ k < n, ∀ x, s.log[k]? = some (some x) → x.link ≠ l) :
    s.logDiscrepancy l d = { s with
      log := s.log.set n (some (h.collapse d)),
      writeQueue := s.writeQueue ++ [⟨.collapse, [s.recordStep n (h.collapse d)]⟩] } := by
  have place : placeOf (heldBy l) s.log = some n :=
    placeOf_eq_some at_ (heldBy_some.2 own) fun k hk x hx => heldBy_false fun r hr => first k hk r (hr ▸ hx)
  have entry : s.log.getD n none = some h := by rw [List.getD_eq_getElem?_getD, at_]; rfl
  unfold State.logDiscrepancy
  simp only [place, entry]
  exact if_pos (State.heldCount_held at_ rfl)

/-- The lowest FREE record takes the discrepancy, and the status block is due (R138, R193). -/
theorem State.logDiscrepancy_free {s : State} {l : LinkId} (d : Discrepancy) {n : Nat}
    (none_ : ∀ x, some x ∈ s.log → x.link ≠ l) (at_ : s.log[n]? = some none) (first : ∀ k < n, s.log[k]? ≠ some none) :
    s.logDiscrepancy l d = State.statusChange { s with
      log := s.log.set n (some (HeldRec.fill l d)),
      writeQueue := s.writeQueue ++
        [⟨.alloc, [s.recordStep n (HeldRec.fill l d), s.logWordStep n true]⟩] } := by
  have held : placeOf (heldBy l) s.log = none :=
    placeOf_eq_none fun x hx => heldBy_false fun r hr => none_ r (hr ▸ hx)
  have free : placeOf (fun h : Option HeldRec => h.isNone) s.log = some n :=
    placeOf_eq_some at_ rfl fun k hk x hx => by
      cases x with
      | none => exact absurd hx (first k hk)
      | some r => rfl
  unfold State.logDiscrepancy
  simp only [held, free]
  exact if_neg (State.heldCount_taken at_ rfl)

/-- With every record HELD by other links the discrepancy is lost (R139). -/
theorem State.logDiscrepancy_full {s : State} {l : LinkId} (d : Discrepancy) (none_ : ∀ x, some x ∈ s.log → x.link ≠ l)
    (full : none ∉ s.log) : s.logDiscrepancy l d = s.notify Notice.logOverflow := by
  have held : placeOf (heldBy l) s.log = none :=
    placeOf_eq_none fun x hx => heldBy_false fun r hr => none_ r (hr ▸ hx)
  have free : placeOf (fun h : Option HeldRec => h.isNone) s.log = none :=
    placeOf_eq_none fun x hx => by
      cases x with
      | none => exact absurd hx full
      | some r => rfl
  unfold State.logDiscrepancy
  simp only [held, free]

/-! ## DISCREPANCY_EVENT -/

theorem discrepancyEvent_takes {s : State} {l : LinkId} {d : Discrepancy} {rest : List Discrepancy}
    (queue : (s.link l).toLog = d :: rest) :
    exec (.discrepancyEvent l) s =
      .next ((s.putLink l { s.link l with toLog := rest }).discrepancyArrives l d) := by
  change execDiscrepancyEvent l s = _
  unfold execDiscrepancyEvent
  simp only [queue]

/-- Settles O37: the held map decides which of the three ends a logged discrepancy has. -/
theorem discrepanciesAreLogged : Obligations.DiscrepanciesAreLogged := by
  intro s l d rest queue s'
  have run := discrepancyEvent_takes queue
  have arrives : s.part ≠ .idle → s.accepted = true →
      exec (.discrepancyEvent l) s = .next (s'.logDiscrepancy l d) := fun idle accepted =>
    run.trans (congrArg _ (if_neg fun x => x.elim idle fun no => no accepted))
  refine ⟨fun quiet => ?_, fun idle accepted => ⟨fun n h at_ own first => ?_, fun others => ⟨fun n at_ first => ?_, fun full => ?_⟩⟩⟩
  · exact run.trans (congrArg _ (if_pos (quiet.imp_right fun no yes => absurd (no.symm.trans yes) Bool.false_ne_true)))
  · exact (arrives idle accepted).trans (congrArg _ (State.logDiscrepancy_held (s := s') d at_ own first))
  · exact ⟨_, (arrives idle accepted).trans (congrArg _ (State.logDiscrepancy_free (s := s') d others at_ first)),
      State.statusChange_sets _ accepted idle, State.statusChange_only _⟩
  · exact ⟨_, (arrives idle accepted).trans (congrArg _ (State.logDiscrepancy_full (s := s') d others full)), rfl⟩

/-! ## The timers of reporting (R192 to R194) -/

theorem holdoffExpiry_announces {s : State} (runs : s.holdoff ≠ none) :
    ∃ t, exec .holdoffExpiry s = .next t ∧ { t with messages := s.messages } = { s with
      holdoff := none, coalesce := 0,
      notices := if s.coalesce = 0 then s.notices else s.notices ||| Notice.orderDone } := by
  obtain ⟨time, running⟩ := Option.ne_none_iff_exists'.1 runs
  change ∃ t, execHoldoffExpiry s = .next t ∧ _
  unfold execHoldoffExpiry
  rw [running]
  refine ⟨_, rfl, ?_⟩
  dsimp only
  by_cases none_ : s.coalesce = 0
  · rw [if_neg (by omega), if_pos none_, ← none_]
  · rw [if_pos (by omega), if_neg none_]
    rfl

theorem statusSpacingEnd_runs {s : State} (runs : s.spacing ≠ none) :
    exec .statusSpacingEnd s =
      .next (if s.statusDue then { s with spacing := none }.queueStatus else { s with spacing := none }) := by
  obtain ⟨time, running⟩ := Option.ne_none_iff_exists'.1 runs
  change execStatusSpacingEnd s = _
  unfold execStatusSpacingEnd
  rw [running]

theorem Ctx.tick_seq (c : Ctx) : c.tick.seq = c.seq := by
  unfold Ctx.tick
  split <;> rfl

theorem Link.tick_rest (lk : Link) : { lk.tick with
    timers := lk.timers, holdForce := lk.holdForce, heldBy := lk.heldBy, byeTimer := lk.byeTimer, echo := lk.echo } = lk :=
  rfl

/-- The uptime counts, and of the rest only the timers move. -/
theorem uptimeTick_ticks (s : State) : ∃ t, exec .uptimeTick s = .next t ∧
    t.uptime = s.uptime + 1 ∧ (∀ l, t.link l = (s.link l).tick) ∧ t.contexts = s.contexts.map Ctx.tick ∧
    { t with uptime := s.uptime, links := s.links, engines := s.engines, contexts := s.contexts,
             holdoff := s.holdoff, spacing := s.spacing } = s :=
  ⟨_, rfl, rfl, fun l => Bank.getElem_map Link.tick s.links l.val l.isLt, rfl, rfl⟩

/-- Settles O38: each timer by its own case, and the tick by what it leaves unchanged. -/
theorem reportingTimersExpire : Obligations.ReportingTimersExpire := by
  intro s
  refine ⟨fun off => ?_, holdoffExpiry_announces, fun off => ?_, fun runs due => ?_, fun runs due accepted waits => ?_,
    fun runs due not => ?_, ?_⟩
  · change execHoldoffExpiry s = _
    unfold execHoldoffExpiry
    rw [off]
  · change execStatusSpacingEnd s = _
    unfold execStatusSpacingEnd
    rw [off]
  · rw [statusSpacingEnd_runs runs, due]
    rfl
  · refine (statusSpacingEnd_runs runs).trans (congrArg _ ((if_pos due).trans (if_pos ⟨accepted, fun x => ?_⟩)))
    exact absurd (waits.symm.trans x) Bool.false_ne_true
  · refine (statusSpacingEnd_runs runs).trans (congrArg _ ((if_pos due).trans (if_neg fun x => ?_)))
    exact not.elim (fun no => absurd (no.symm.trans x.1) Bool.false_ne_true) fun yes => x.2 yes
  · obtain ⟨t, run, up, links, contexts, back⟩ := uptimeTick_ticks s
    refine ⟨t, run, ?_, fun l => ?_, ?_, back⟩
    · rw [up, BitVec.toNat_add]
      rfl
    · rw [links l]
      exact ⟨rfl, rfl, rfl, rfl⟩
    · rw [contexts, List.map_map]
      exact congrArg (fun f => s.contexts.map f) (funext Ctx.tick_seq)

end Sys2Proof.Machine
end


section
/-! PROOFS. What the Page Link does with an arrived page: routing, the FIFO, the lane observations, the turns of the
Page Processor. -/

namespace Sys2Proof.Machine

-- One declaration at a time: the threads of a parallel elaboration exceed the memory of the check.
set_option Elab.async false

/-! ## The numbers below a bound, in rising order -/

theorem length_allBelow (n : Nat) : (allBelow n).length = n := by
  induction n with
  | zero => rfl
  | succ n ih => simp [allBelow, ih]

theorem getElem_allBelow (n i : Nat) (h : i < (allBelow n).length) :
    (allBelow n)[i] = ⟨i, length_allBelow n ▸ h⟩ := by
  induction n with
  | zero => exact absurd h (Nat.not_lt_zero i)
  | succ n ih =>
    have lt : i < n + 1 := length_allBelow (n + 1) ▸ h
    simp only [allBelow, List.getElem_append, List.length_map, length_allBelow]
    split
    · rw [List.getElem_map, ih]
      rfl
    · rw [List.getElem_singleton]
      exact Fin.ext (by change n = i; omega)

/-- The lowest number that meets a test. -/
theorem find?_allBelow {n : Nat} {test : Fin n → Bool} {k : Fin n} :
    (allBelow n).find? test = some k ↔ test k = true ∧ ∀ j < k, test j = false := by
  rw [List.find?_eq_some_iff_getElem]
  refine and_congr_right fun _ => ⟨?_, fun first => ⟨k.val, by rw [length_allBelow]; exact k.isLt, getElem_allBelow n k.val _, ?_⟩⟩
  · rintro ⟨i, hi, at_, first⟩ j hj
    rw [getElem_allBelow] at at_
    have here := first j.val (by rw [← at_] at hj; exact hj)
    rw [getElem_allBelow] at here
    simpa using here
  · intro j hj
    rw [getElem_allBelow, first ⟨j, _⟩ hj]
    rfl

/-! ## A step of one link -/

/-- A command that is a step of one link. -/
theorem onLink_step {c : Instr} {s : State} {l : LinkId} {f : Env → Link → Link}
    (run : exec c s = .next (s.onLink l f)) :
    ∃ t, exec c s = .next t ∧ OnlyLink l s t ∧ t.link l = f (s.env l) (s.link l) :=
  ⟨_, run, s.onLink_only l f, s.link_onLink l f⟩

/-! ## The FIFO and its flow control (R53, R55) -/

theorem Link.store_room {lk : Link} (entry : RxEntry) (room : lk.rx.length < 8) : lk.store entry = { lk with
    rx := lk.rx ++ [entry],
    owedFlow :=
      if lk.rx.length ≠ 5 then lk.owedFlow
      else if lk.owedFlow = some .resume then none
      else if lk.holdForce = none then some .hold else lk.owedFlow } := by
  have owed : lk.owedAfterStore (lk.rx.length + 1) =
      if lk.rx.length ≠ 5 then lk.owedFlow
      else if lk.owedFlow = some .resume then none
      else if lk.holdForce = none then some .hold else lk.owedFlow := by
    unfold Link.owedAfterStore
    by_cases five : lk.rx.length = 5
    · rw [if_pos (by omega), if_neg (not_not.2 five)]
      rcases lk.owedFlow with _ | _ | _ <;> cases lk.holdForce <;> rfl
    · rw [if_neg (by omega), if_pos five]
  unfold Link.store
  rw [if_pos room, owed]

theorem Link.store_full {lk : Link} (entry : RxEntry) (full : 8 ≤ lk.rx.length) : lk.store entry =
    { lk with record := { lk.record with overruns := min 65535 (lk.record.overruns + 1) } } :=
  if_neg (Nat.not_lt.2 full)

theorem Link.touchSilent_eq (lk : Link) : lk.touchSilent = { lk with timers := { lk.timers with
    peerSilent := if lk.timers.peerSilent = none then none
      else if lk.record.state = .up then some 50000000 else some 8000000 } } := by
  unfold Link.touchSilent
  cases lk.timers.peerSilent with
  | none => rfl
  | some time => cases lk.record.state <;> rfl

/-! ## Routing (R41) -/

theorem Link.pageArrives_quiet {e : Env} {lk : Link} (near : Lane) (a : Arrival) (quiet : lk.record.state.quiet = true) :
    lk.pageArrives e near a = lk :=
  if_pos quiet

/-- A link that takes pages looks at what the page is. -/
theorem Link.pageArrives_judges {e : Env} {lk : Link} (near : Lane) (a : Arrival)
    (awake : lk.record.state.quiet = false) : lk.pageArrives e near a =
      match judgePage a.framed a.bytes with
      | .ok ⟨sender, .beacon sp far⟩ => lk.beaconArrives e near ⟨sender, sp, far, a.inverted, e.uptime⟩
      | .ok p => if lk.onPilot near then lk.conversationArrives p a else lk
      | .error t => if lk.onPilot near then lk.store (.tagged t a.bytes) else lk :=
  if_neg (by rw [awake]; exact Bool.false_ne_true)

theorem Link.pageArrives_beacon {e : Env} {lk : Link} (near : Lane) {a : Arrival} (awake : lk.record.state.quiet = false)
    {tag : Tag} {sp : Split} {far : Lane} (judged : judgePage a.framed a.bytes = .ok ⟨tag, .beacon sp far⟩) :
    lk.pageArrives e near a = lk.beaconArrives e near ⟨tag, sp, far, a.inverted, e.uptime⟩ := by
  rw [Link.pageArrives_judges near a awake, judged]

theorem Link.pageArrives_page {e : Env} {lk : Link} (near : Lane) {a : Arrival} (awake : lk.record.state.quiet = false)
    {p : Page} (judged : judgePage a.framed a.bytes = .ok p) (other : ∀ sp k, p.body ≠ .beacon sp k) :
    lk.pageArrives e near a = if lk.onPilot near then lk.conversationArrives p a else lk := by
  rw [Link.pageArrives_judges near a awake, judged]
  obtain ⟨sender, body⟩ := p
  cases body with
  | beacon sp k => exact absurd rfl (other sp k)
  | _ => rfl

theorem Link.pageArrives_tagged {e : Env} {lk : Link} (near : Lane) {a : Arrival} (awake : lk.record.state.quiet = false)
    {tag : RxTag} (judged : judgePage a.framed a.bytes = .error tag) :
    lk.pageArrives e near a = if lk.onPilot near then lk.store (.tagged tag a.bytes) else lk := by
  rw [Link.pageArrives_judges near a awake, judged]

theorem Link.onPilot_iff {lk : Link} {near : Lane} :
    lk.onPilot near = true ↔ lk.record.state.conversing = true ∧ lk.record.pilot = some near := by
  unfold Link.onPilot
  rw [Bool.and_eq_true, decide_eq_true_iff]

/-- Off the pilot lane only a beacon does anything. -/
theorem Link.pageArrives_off {e : Env} {lk : Link} {near : Lane} {a : Arrival}
    (off : lk.record.state.conversing = false ∨ lk.record.pilot ≠ some near)
    (other : ∀ p, judgePage a.framed a.bytes = .ok p → ∀ sp k, p.body ≠ .beacon sp k) : lk.pageArrives e near a = lk := by
  have no : ¬lk.onPilot near = true := fun x => off.elim
    (fun c => absurd (c.symm.trans (Link.onPilot_iff.1 x).1) Bool.false_ne_true) fun p => p (Link.onPilot_iff.1 x).2
  cases awake : lk.record.state.quiet with
  | true => exact Link.pageArrives_quiet near a awake
  | false =>
    cases judged : judgePage a.framed a.bytes with
    | ok p => rw [Link.pageArrives_page near awake judged (other p judged), if_neg no]
    | error tag => rw [Link.pageArrives_tagged near awake judged, if_neg no]

/-- The pages of the sequencer, which the FIFO stores (R41). -/
def PageBody.stored : PageBody → Bool
  | .trainReady | .trained | .requal | .keepalive | .bye _ | .qualReady _ | .qualResult .. | .ident .. => true
  | .beacon .. | .echoReq _ | .echoReply .. | .hold | .resume => false

theorem Link.conversationArrives_stored {lk : Link} {p : Page} (a : Arrival) (stored : p.body.stored = true) :
    lk.conversationArrives p a = lk.touchSilent.store (.untagged p) := by
  obtain ⟨sender, body⟩ := p
  unfold Link.conversationArrives
  cases body
  case beacon | echoReq | echoReply | hold | resume => exact absurd stored Bool.false_ne_true
  all_goals rfl

/-- PAGE_ARRIVAL is a step of the link whose leg owns the lane (R3). -/
theorem pageArrival_arrives {port : PortId} {lane : Lane} (a : Arrival) {s : State} {l : LinkId} {near : Lane}
    (owns : nearLane (s.splitOf port) lane = (legOf l, near)) (own : portOf l = port) :
    ∃ t, exec (.pageArrival port lane a) s = .next t ∧ OnlyLink l s t ∧
      t.link l = (s.link l).pageArrives (s.env l) near a := by
  refine onLink_step (f := fun e lk => lk.pageArrives e near a) ?_
  change execPageArrival port lane a s = _
  unfold execPageArrival
  rw [owns]
  dsimp only
  rw [← own, linkOf_portOf]

theorem LinkState.quiet_of_mem {st : LinkState} (h : st ∈ [LinkState.off, .backoff, .held]) : st.quiet = true := by
  cases st
  case off | backoff | held => rfl
  all_goals exact absurd h (by decide)

theorem LinkState.quiet_of_conversing {st : LinkState} (h : st.conversing = true) : st.quiet = false := by
  cases st
  case off | listen | backoff | held => exact absurd h Bool.false_ne_true
  all_goals rfl

/-- Settles O39: routing by state and lane, then by what the page is. -/
theorem arrivedPagesAreRouted : Obligations.ArrivedPagesAreRouted := by
  intro port lane a s l near owns own
  obtain ⟨t, run, only, eq⟩ := pageArrival_arrives a owns own
  refine ⟨t, run, only, fun quiet => ?_, fun off other => ?_, fun converses pilot => ?_, Link.touchSilent_eq _⟩
  · exact eq.trans (Link.pageArrives_quiet near a (LinkState.quiet_of_mem quiet))
  · exact eq.trans (Link.pageArrives_off off other)
  have awake := LinkState.quiet_of_conversing converses
  have on : (s.link l).onPilot near = true := Link.onPilot_iff.2 ⟨converses, pilot⟩
  have taken : ∀ p, judgePage a.framed a.bytes = .ok p → (∀ sp k, p.body ≠ .beacon sp k) →
      t.link l = (s.link l).conversationArrives p a := fun p judged other =>
    (eq.trans (Link.pageArrives_page near awake judged other)).trans (if_pos on)
  refine ⟨fun entry timers what => ?_, fun p judged => ⟨fun b => ?_, fun b => ?_, fun n b => ?_, fun n h b => ?_⟩⟩
  · have stored : t.link l = { s.link l with timers := timers }.store entry := by
      rcases what with ⟨tag, judged, rfl, rfl⟩ | ⟨p, judged, kind, rfl, rfl⟩
      · exact (eq.trans (Link.pageArrives_tagged near awake judged)).trans (if_pos on)
      · have sequencer : p.body.stored = true := by
          rcases kind with b | b | b | b | ⟨_, b⟩ | ⟨_, b⟩ | ⟨_, _, b⟩ | ⟨_, _, _, _, _, _, b⟩ <;> rw [b] <;> rfl
        refine (taken p judged fun sp k b => ?_).trans (Link.conversationArrives_stored a sequencer)
        rw [b] at sequencer
        exact absurd sequencer Bool.false_ne_true
    exact ⟨fun room => stored.trans (Link.store_room entry (by exact room)),
      fun full => stored.trans (Link.store_full entry (by exact full))⟩
  all_goals
    refine (taken p judged fun sp k x => PageBody.noConfusion (b.symm.trans x)).trans ?_
    unfold Link.conversationArrives
    rw [b]
  all_goals rfl

/-! ## The present observations (R90, R93) -/

theorem mem_presentObs {obs : Vector (Option Obs) 8} {width : Nat} {k : Lane} {o : Obs} :
    (k, o) ∈ presentObs obs width ↔ k.val < width ∧ obs[k] = some o := by
  unfold presentObs
  rw [List.mem_filterMap]
  constructor
  · rintro ⟨i, -, found⟩
    split at found
    · next lt =>
      obtain ⟨p, there, pair⟩ := Option.map_eq_some_iff.1 found
      obtain ⟨rfl, rfl⟩ := Prod.mk.inj pair
      exact ⟨lt, there⟩
    · exact absurd found nofun
  · rintro ⟨lt, there⟩
    refine ⟨k, mem_allBelow k, ?_⟩
    rw [if_pos lt, there]
    rfl

/-- The first observation that meets a test is the one of the lowest lane. -/
theorem find?_presentObs {obs : Vector (Option Obs) 8} {width : Nat} {test : Obs → Bool} {k : Lane} (lt : k.val < width) :
    ((presentObs obs width).find? fun p => test p.2).map (·.1) = some k ↔
      (∃ o, obs[k] = some o ∧ test o = true) ∧ ∀ j < k, ∀ o, obs[j] = some o → test o = false := by
  have below : ∀ i : Lane, i.val < width →
      Option.any (fun p : Lane × Obs => test p.2) (if i.val < width then (obs[i]).map fun o => (i, o) else none) =
        (obs[i]).any test := by
    intro i hi
    rw [if_pos hi]
    cases obs[i] <;> rfl
  unfold presentObs
  rw [List.find?_filterMap]
  constructor
  · intro found
    obtain ⟨p, bound, pk⟩ := Option.map_eq_some_iff.1 found
    obtain ⟨i, first, there⟩ := Option.bind_eq_some_iff.1 bound
    obtain ⟨holds, lower⟩ := find?_allBelow.1 first
    have same : i = k := by
      split at there
      · obtain ⟨o, -, rfl⟩ := Option.map_eq_some_iff.1 there
        exact pk
      · exact absurd there nofun
    subst same
    rw [below i lt] at holds
    refine ⟨by simpa [Option.any_eq_true] using holds, fun j hj o there => ?_⟩
    have no := lower j hj
    rw [below j (Nat.lt_trans hj lt), there] at no
    exact no
  · rintro ⟨⟨o, there, holds⟩, lower⟩
    have first := (find?_allBelow (n := 8) (k := k) (test := fun i : Fin 8 =>
      Option.any (fun p : Lane × Obs => test p.2) (if i.val < width then (obs[i]).map fun o => (i, o) else none))).2
      ⟨by rw [below k lt, there]; exact holds, fun j hj => by
        rw [below j (Nat.lt_trans hj lt)]
        cases at_ : obs[j] with
        | none => rfl
        | some q => exact lower j hj q at_⟩
    rw [first]
    change Option.map _ (if k.val < width then _ else _) = _
    rw [if_pos lt, there]
    rfl

theorem presentLanes_length : ∀ w : Fin 9, ((allBelow 8).filter fun i => decide (i.val < w.val)).length = w.val := by decide

/-- A map is complete when every lane of the leg is observed (R98). -/
theorem mapComplete_iff {obs : Vector (Option Obs) 8} {width : Nat} (fits : width ≤ 8) :
    mapComplete width (presentObs obs width) = true ↔ ∀ k : Lane, k.val < width → obs[k] ≠ none := by
  have lanes : ((allBelow 8).filter fun i => decide (i.val < width)).length = width :=
    presentLanes_length ⟨width, Nat.lt_succ_of_le fits⟩
  have filtered : presentObs obs width =
      ((allBelow 8).filter fun i => decide (i.val < width)).filterMap fun i => (obs[i]).map fun o => (i, o) := by
    unfold presentObs
    rw [List.filterMap_filter]
    simp only [decide_eq_true_iff]
  unfold mapComplete
  rw [decide_eq_true_iff, filtered, List.length_filterMap_eq_countP]
  refine (iff_of_eq (congrArg (_ = ·) lanes.symm)).trans ?_
  simp only [List.countP_eq_length, List.mem_filter, decide_eq_true_iff, mem_allBelow, true_and]
  refine forall_congr' fun k => imp_congr_right fun _ => ?_
  rw [Option.isSome_map, Option.isSome_iff_ne_none]

/-! ## The map checks (R96) -/

theorem anyPair_iff {xs : List (Lane × Obs)} {test : Lane × Obs → Lane × Obs → Bool} :
    anyPair xs test = true ↔ ∃ x ∈ xs, ∃ y ∈ xs, test x y = true := by
  simp only [anyPair, List.any_eq_true]

theorem loopedToSelf_iff {own : Tag} {xs : List (Lane × Obs)} :
    (xs.any fun a => a.2.tag = own) = true ↔ LoopedToSelf own xs := by
  simp only [LoopedToSelf, List.any_eq_true, decide_eq_true_iff]

theorem splitMismatch_iff {sp : Split} {xs : List (Lane × Obs)} :
    ((xs.any fun a => a.2.split ≠ sp) || anyPair xs (fun a b => a.2.tag.onlyLegDiffers b.2.tag)) = true ↔
      SplitMismatch sp xs := by
  simp only [SplitMismatch, Bool.or_eq_true, anyPair_iff, List.any_eq_true, Tag.onlyLegDiffers, decide_eq_true_iff]

theorem mixedCable_iff {xs : List (Lane × Obs)} :
    anyPair xs (fun a b => a.2.tag.moreThanLegDiffers b.2.tag) = true ↔ MixedCable xs := by
  simp only [MixedCable, anyPair_iff, Tag.moreThanLegDiffers, decide_eq_true_iff]

theorem laneConflict_iff {width : Nat} {xs : List (Lane × Obs)} :
    (anyPair xs (fun a b => decide (a.1 ≠ b.1 ∧ a.2.far = b.2.far)) || xs.any (fun a => width ≤ a.2.far.val)) = true ↔
      LaneConflict width xs := by
  simp only [LaneConflict, Bool.or_eq_true, anyPair_iff, List.any_eq_true, decide_eq_true_iff]

/-- The first check that fails decides. -/
theorem mapFault_first (own : Tag) (sp : Split) (width : Nat) (xs : List (Lane × Obs)) :
    (LoopedToSelf own xs → mapFault own sp width xs = some .loopedToSelf) ∧
    (¬LoopedToSelf own xs → SplitMismatch sp xs → mapFault own sp width xs = some .splitMismatch) ∧
    (¬LoopedToSelf own xs → ¬SplitMismatch sp xs → MixedCable xs → mapFault own sp width xs = some .mixedCable) ∧
    (¬LoopedToSelf own xs → ¬SplitMismatch sp xs → ¬MixedCable xs → LaneConflict width xs →
      mapFault own sp width xs = some .laneConflict) ∧
    (¬LoopedToSelf own xs → ¬SplitMismatch sp xs → ¬MixedCable xs → ¬LaneConflict width xs →
      mapFault own sp width xs = none) := by
  unfold mapFault
  refine ⟨fun a => if_pos (loopedToSelf_iff.2 a), fun a b => ?_, fun a b c => ?_, fun a b c d => ?_, fun a b c d => ?_⟩
  all_goals refine (if_neg (mt loopedToSelf_iff.1 a)).trans ?_
  · exact if_pos (splitMismatch_iff.2 b)
  all_goals refine (if_neg (mt splitMismatch_iff.1 b)).trans ?_
  · exact if_pos (mixedCable_iff.2 c)
  all_goals refine (if_neg (mt mixedCable_iff.1 c)).trans ?_
  · exact if_pos (laneConflict_iff.2 d)
  · exact if_neg (mt laneConflict_iff.1 d)

theorem mapFault_iff (own : Tag) (sp : Split) (width : Nat) (xs : List (Lane × Obs)) :
    (mapFault own sp width xs = some .loopedToSelf ↔ LoopedToSelf own xs) ∧
    (mapFault own sp width xs = some .splitMismatch ↔ ¬LoopedToSelf own xs ∧ SplitMismatch sp xs) ∧
    (mapFault own sp width xs = some .mixedCable ↔ ¬LoopedToSelf own xs ∧ ¬SplitMismatch sp xs ∧ MixedCable xs) ∧
    (mapFault own sp width xs = some .laneConflict ↔
      ¬LoopedToSelf own xs ∧ ¬SplitMismatch sp xs ∧ ¬MixedCable xs ∧ LaneConflict width xs) ∧
    (mapFault own sp width xs = none ↔
      ¬LoopedToSelf own xs ∧ ¬SplitMismatch sp xs ∧ ¬MixedCable xs ∧ ¬LaneConflict width xs) := by
  obtain ⟨one, two, three, four, five⟩ := mapFault_first own sp width xs
  by_cases a : LoopedToSelf own xs
  · simp [one a, a]
  by_cases b : SplitMismatch sp xs
  · simp [two a b, a, b]
  by_cases c : MixedCable xs
  · simp [three a b c, a, b, c]
  by_cases d : LaneConflict width xs
  · simp [four a b c d, a, b, c, d]
  · simp [five a b c d, a, b, c, d]

/-! ## The lane map and the pilot lane (R95) -/

theorem Link.followObs_laneMap {lk : Link} (fits : lk.record.laneMap.length ≤ 8) :
    lk.followObs.record.laneMap.length = lk.record.laneMap.length ∧ ∀ k : Lane, k.val < lk.record.laneMap.length →
      lk.followObs.record.laneMap[k.val]? = some ((lk.obs[k]).map fun o => (⟨o.far, o.inverted⟩ : LaneEntry)) := by
  have eq : lk.followObs.record.laneMap = ((allBelow 8).take lk.record.laneMap.length).map fun i =>
      (lk.obs[i]).map fun o => (⟨o.far, o.inverted⟩ : LaneEntry) := rfl
  rw [eq]
  refine ⟨by rw [List.length_map, List.length_take, length_allBelow]; omega, fun k hk => ?_⟩
  rw [List.getElem?_map, List.getElem?_take_of_lt hk,
    List.getElem?_eq_getElem (by rw [length_allBelow]; exact k.isLt), getElem_allBelow]
  rfl

theorem Link.followObs_pilot {lk : Link} {k : Lane} (lt : k.val < lk.record.laneMap.length) :
    lk.followObs.record.pilot = some k ↔
      (∃ o, lk.obs[k] = some o ∧ o.far = 0) ∧ ∀ j : Lane, j < k → ∀ o, lk.obs[j] = some o → o.far ≠ 0 := by
  refine (find?_presentObs (test := fun o => decide (o.far = 0)) lt).trans ?_
  simp only [decide_eq_true_iff, decide_eq_false_iff_not, ne_eq]

/-! ## Beacons (R91, R92, R94) -/

theorem Link.beaconArrives_elsewhere {e : Env} {lk : Link} (lane : Lane) (o : Obs) (no : lk.record.state ≠ .listen)
    (nor : lk.record.state ≠ .pairing) : lk.beaconArrives e lane o = lk := by
  unfold Link.beaconArrives
  split
  · next h => exact absurd h no
  · next h => exact absurd h nor
  all_goals rfl

theorem Link.beaconArrives_quiet {e : Env} {lk : Link} (lane : Lane) (o : Obs) (listens : lk.record.state = .listen)
    (none_ : e.leg.kind = .none) :
    lk.beaconArrives e lane o = { lk with inbox := lk.inbox ++ [.quietBeacon lane o.tag o.seen] } := by
  unfold Link.beaconArrives
  rw [listens]
  exact if_pos none_

theorem Link.beaconArrives_listen {e : Env} {lk : Link} (lane : Lane) (o : Obs) (listens : lk.record.state = .listen)
    (expects : e.leg.kind ≠ .none) : lk.beaconArrives e lane o = { lk with
      obs := lk.obs.set lane (some o),
      inbox := if (presentObs lk.obs e.width).isEmpty then lk.inbox ++ [.firstBeacon lane] else lk.inbox } := by
  unfold Link.beaconArrives
  rw [listens]
  exact if_neg expects

theorem Link.beaconArrives_pairing {e : Env} {lk : Link} (lane : Lane) (o : Obs) (pairs : lk.record.state = .pairing) :
    lk.beaconArrives e lane o =
      if ((lk.obs[lane]).map fun p => { p with seen := o.seen }) ≠ some o then
        { ({ lk with obs := lk.obs.set lane (some o) } : Link).followObs with
          inbox := lk.inbox ++ [evaluateMap e (lk.obs.set lane (some o)) lane] }
      else { lk with obs := lk.obs.set lane (some o) } := by
  unfold Link.beaconArrives
  rw [pairs]

/-- What a beacon in PAIRING does: its lane's observation, and where that is a different one, what follows it. -/
theorem Link.beaconArrives_pairs {e : Env} {lk new : Link} {lane : Lane} {o : Obs} (pairs : lk.record.state = .pairing)
    (eq : new = lk.beaconArrives e lane o) :
    new.obs = lk.obs.set lane (some o) ∧
    (∀ p, lk.obs[lane] = some p → p.tag = o.tag → p.split = o.split → p.far = o.far → p.inverted = o.inverted →
      new.record = lk.record ∧ new.inbox = lk.inbox) ∧
    ((∀ p, lk.obs[lane] = some p →
        ¬(p.tag = o.tag ∧ p.split = o.split ∧ p.far = o.far ∧ p.inverted = o.inverted)) →
      new = { ({ lk with obs := lk.obs.set lane (some o) } : Link).followObs with
        inbox := lk.inbox ++ [evaluateMap e (lk.obs.set lane (some o)) lane] }) := by
  rw [Link.beaconArrives_pairing lane o pairs] at eq
  refine ⟨?_, fun p there tag sp far inverted => ?_, fun different => ?_⟩
  · rw [eq]
    split <;> rfl
  · have same : ¬((lk.obs[lane]).map fun p => { p with seen := o.seen }) ≠ some o := by
      rw [there, not_not, Option.map_some, tag, sp, far, inverted]
    rw [eq, if_neg same]
    exact ⟨rfl, rfl⟩
  · refine eq.trans (if_pos fun same => ?_)
    obtain ⟨p, there, pair⟩ := Option.map_eq_some_iff.1 same
    exact different p there ⟨(congrArg Obs.tag pair :), (congrArg Obs.split pair :), (congrArg Obs.far pair :),
      (congrArg Obs.inverted pair :)⟩

theorem LinkState.awake_of_listen {st : LinkState} (h : st = .listen ∨ st = .pairing) : st.quiet = false := by
  rcases h with rfl | rfl <;> rfl

/-- Settles O41: a beacon by the state of its link, the map checks by the first that fails. -/
theorem beaconsAreObserved : Obligations.BeaconsAreObserved := by
  refine ⟨fun port lane a s l near tag sp far owns own judged => ?_, fun obs width k o => mem_presentObs, mapFault_iff,
    fun e obs lane fits => ⟨fun k o fault there => ?_, fun whole => ⟨fun every => ?_, fun ⟨k, lt, missing⟩ => ?_⟩⟩⟩
  · obtain ⟨t, run, only, eq⟩ := pageArrival_arrives a owns own
    have arrives : (s.link l).record.state.quiet = false →
        t.link l = (s.link l).beaconArrives (s.env l) near ⟨tag, sp, far, a.inverted, s.uptime⟩ := fun awake =>
      eq.trans (Link.pageArrives_beacon near awake judged)
    have set_ : ∀ o : Obs, ((s.link l).obs.set near (some o))[near] = some o := fun o => Vector.getElem_set_self _
    refine ⟨t, run, only, fun no nor => ?_, fun listens kind => ?_, fun listens kind => ?_, fun pairs => ?_⟩
    · cases awake : (s.link l).record.state.quiet with
      | true => exact eq.trans (Link.pageArrives_quiet near a awake)
      | false => exact (arrives awake).trans (Link.beaconArrives_elsewhere near _ no nor)
    · exact (arrives (LinkState.awake_of_listen (.inl listens))).trans (Link.beaconArrives_quiet near _ listens kind)
    · rw [arrives (LinkState.awake_of_listen (.inl listens)), Link.beaconArrives_listen near _ listens kind]
      refine ⟨set_ _, rfl, ?_⟩
      simp only [List.isEmpty_iff]
    · obtain ⟨obs, same, different⟩ :=
        Link.beaconArrives_pairs pairs (arrives (LinkState.awake_of_listen (.inr pairs)))
      refine ⟨obs ▸ set_ _, fun k hk => ?_, same, fun other => ?_⟩
      · rw [obs]
        exact Vector.getElem_set_ne _ _ fun x => hk (Fin.ext x.symm)
      have new := different other
      have inbox : (t.link l).inbox = (s.link l).inbox ++ [evaluateMap (s.env l) (t.link l).obs near] := by
        rw [obs, new]
      refine ⟨inbox, fun short => ?_⟩
      obtain ⟨length, entries⟩ := Link.followObs_laneMap (lk := { s.link l with
        obs := (s.link l).obs.set near (some ⟨tag, sp, far, a.inverted, s.uptime⟩) }) short
      rw [obs, new]
      exact ⟨length, fun k lt => ⟨entries k lt, Link.followObs_pilot (by exact lt)⟩⟩
  · unfold evaluateMap
    simp only [fault, there]
  · unfold evaluateMap
    simp only [whole, (mapComplete_iff fits).2 every]
  · unfold evaluateMap
    have partly : mapComplete e.width (presentObs obs e.width) = false := by
      rw [Bool.eq_false_iff]
      exact fun x => (mapComplete_iff fits).1 x k lt missing
    simp only [whole, partly]

/-! ## The turns of the Page Processor (R54) -/

/-- The first link in turn is the one that the fewest links come before. -/
theorem find?_turnOrder {last l : LinkId} {test : LinkId → Bool} (holds : test l = true)
    (first : ∀ k, test k = true → (l - (last + 1)).val ≤ (k - (last + 1)).val) :
    (turnOrder last).find? test = some l := by
  have place : ∀ i : LinkId, last + 1 + i - (last + 1) = i := fun i => by rw [add_sub_cancel_left]
  have found : (allBelow 64).find? (test ∘ fun i => last + 1 + i) = some (l - (last + 1)) := by
    refine find?_allBelow.2 ⟨?_, fun j hj => ?_⟩
    · rw [Function.comp_apply, add_sub_cancel]
      exact holds
    · by_contra yes
      have le := first (last + 1 + j) (by simpa using yes)
      rw [place] at le
      exact absurd hj (Nat.not_lt.2 le)
  unfold turnOrder
  rw [List.find?_map, found, Option.map_some, add_sub_cancel]

theorem Link.owedAfterTake_eq (lk : Link) (n : Nat) : lk.owedAfterTake n =
    if n = 2 ∧ lk.holdForce ≠ none then some .resume
    else if n ≤ 2 ∧ lk.owedFlow = some .hold then none else lk.owedFlow := by
  unfold Link.owedAfterTake
  simp only [Option.isSome_iff_ne_none]

theorem pageProcessorTurn_serves {s : State} {l : LinkId}
    (found : ((turnOrder s.lastServed).find? fun l => !(s.link l).rx.isEmpty) = some l) :
    exec .pageProcessorTurn s = .next { s.onLink l fun _ lk => lk.serve with lastServed := l } := by
  change execPageProcessorTurn s = _
  unfold execPageProcessorTurn
  rw [found]

/-- Settles O42: the first link in turn is served, and its head entry decides. -/
theorem pageProcessorTakesTurns : Obligations.PageProcessorTakesTurns := by
  intro s
  refine ⟨fun empty => ?_, fun l entry rest queue first => ?_⟩
  · have found : ((turnOrder s.lastServed).find? fun l => !(s.link l).rx.isEmpty) = none :=
      List.find?_eq_none.2 fun k _ => by rw [empty k]; exact Bool.false_ne_true
    change execPageProcessorTurn s = _
    unfold execPageProcessorTurn
    rw [found]
  · have found : ((turnOrder s.lastServed).find? fun l => !(s.link l).rx.isEmpty) = some l := by
      refine find?_turnOrder (by rw [queue]; rfl) fun k hk => first k fun none_ => ?_
      rw [none_] at hk
      exact absurd hk Bool.false_ne_true
    have only := s.onLink_only l fun _ lk => lk.serve
    have link := s.link_onLink l fun _ lk => lk.serve
    refine ⟨_, pageProcessorTurn_serves found, rfl, ?_⟩
    generalize s.onLink l (fun _ lk => lk.serve) = u at only link
    have same : ∀ k, State.link { u with lastServed := l } k = u.link k := fun k => rfl
    have back : u.lastServed = s.lastServed := (congrArg State.lastServed only.rest :)
    refine ⟨?_, ?_⟩
    · rw [← back]
      exact only
    · rw [same, link]
      unfold Link.serve
      rw [queue]
      cases entry with
      | tagged tag bytes => exact ⟨rfl, Link.owedAfterTake_eq _ _, rfl, rfl⟩
      | untagged p => exact ⟨rfl, Link.owedAfterTake_eq _ _, rfl, rfl⟩

end Sys2Proof.Machine
end


section
/-! PROOFS. What a received page is, and that a built page is received as it was sent (R38, R40, R197). -/

namespace Sys2Proof.Machine

-- One declaration at a time: the threads of a parallel elaboration exceed the memory of the check.
set_option Elab.async false

/-! ## Codes (R196) -/

theorem splitOf_iff {n : Nat} {sp : Split} : splitOf n = some sp ↔ n = sp.code := by
  unfold splitOf
  split
  · cases sp <;> decide
  · cases sp <;> decide
  · next h1 h2 => exact ⟨nofun, fun h => by cases sp; exacts [absurd h h1, absurd h h2]⟩

theorem expectKindOf_iff {n : Nat} {k : ExpectKind} : expectKindOf n = some k ↔ n = k.code := by
  unfold expectKindOf
  split
  · cases k <;> decide
  · cases k <;> decide
  · cases k <;> decide
  · next h1 h2 h3 => exact ⟨nofun, fun h => by cases k; exacts [absurd h h1, absurd h h2, absurd h h3]⟩

theorem strictnessOf_iff {n : Nat} {st : Strictness} : strictnessOf n = some st ↔ n = st.code := by
  unfold strictnessOf
  split
  · cases st <;> decide
  · cases st <;> decide
  · next h1 h2 => exact ⟨nofun, fun h => by cases st; exacts [absurd h h1, absurd h h2]⟩

theorem verdictOf_iff {n : Nat} {v : Verdict} : verdictOf n = some v ↔ n = v.code := by
  unfold verdictOf
  split
  · cases v <;> decide
  · cases v <;> decide
  · cases v <;> decide
  · next h1 h2 h3 => exact ⟨nofun, fun h => by cases v; exacts [absurd h h1, absurd h h2, absurd h h3]⟩

theorem byeReasonOf_iff {n : Nat} {r : ByeReason} : byeReasonOf n = some r ↔ n = r.code := by
  unfold byeReasonOf
  split
  · cases r <;> decide
  · cases r <;> decide
  · cases r <;> decide
  · next h1 h2 h3 => exact ⟨nofun, fun h => by cases r; exacts [absurd h h1, absurd h h2, absurd h h3]⟩

theorem finOf_iff {n k : Nat} {i : Fin n} : finOf n k = some i ↔ k = i.val := finOf_some.trans eq_comm

/-! ## The content of a received page (R40, R197) -/

/-- A body is of the kind that the first byte names. -/
theorem PageBody.fits_kind {bs : List Byte} {body : PageBody} (h : body.fits bs) : field bs 0 1 = body.kindCode := by
  cases body
  case trainReady | trained | requal | keepalive | hold | resume => exact h
  all_goals exact h.1

theorem pageBody_kind {bs : List Byte} {body : PageBody} (h : pageBody bs = some body) :
    field bs 0 1 = body.kindCode := by
  unfold pageBody at h
  dsimp only at h
  split at h
  case h_2 kind =>
    simp only [bind, Option.bind_eq_some_iff] at h
    obtain ⟨sp, -, k, -, st, -, h⟩ := h
    split at h
    · exact absurd h nofun
    split at h
    · split at h
      · obtain rfl := Option.some.inj h
        exact kind
      · exact absurd h nofun
    · obtain rfl := Option.some.inj h
      exact kind
  case h_8 kind =>
    simp only [bind, Option.bind_eq_some_iff] at h
    obtain ⟨v, -, h⟩ := h
    split at h
    · obtain rfl := Option.some.inj h
      exact kind
    · exact absurd h nofun
  case h_1 kind =>
    simp only [bind, Option.bind_eq_some_iff] at h
    obtain ⟨sp, -, lane, -, h⟩ := h
    obtain rfl := Option.some.inj h
    exact kind
  case h_3 kind | h_4 kind | h_11 kind =>
    simp only [bind, Option.bind_eq_some_iff] at h
    obtain ⟨n, -, h⟩ := h
    obtain rfl := Option.some.inj h
    exact kind
  case h_5 kind | h_6 kind | h_7 kind | h_9 kind | h_10 kind | h_12 kind | h_13 kind =>
    obtain rfl := Option.some.inj h
    exact kind
  case h_14 => exact absurd h nofun

/-- The fields of an IDENT pass their tests, a tag being read where the kind is SPECIFIC (R43). -/
theorem identBody_iff {sp sp' : Split} {k k' : ExpectKind} {st st' : Strictness} {read tag : Tag}
    {units units' burst burst' : Nat} :
    (if units = 0 ∨ units > 16384 ∨ burst = 0 then none
      else if k = .specific then
        (if read.named then some (PageBody.ident sp k st read units burst) else none)
      else some (.ident sp k st Tag.no units burst)) = some (.ident sp' k' st' tag units' burst') ↔
    (sp = sp' ∧ k = k' ∧ st = st' ∧ units = units' ∧ burst = burst') ∧ (1 ≤ units' ∧ units' ≤ 16384 ∧ 1 ≤ burst') ∧
      (k' = .specific → tag = read ∧ tag.chassis ≠ 0) ∧ (k' ≠ .specific → tag = Tag.no) := by
  have range : ¬(units = 0 ∨ units > 16384 ∨ burst = 0) ↔ 1 ≤ units ∧ units ≤ 16384 ∧ 1 ≤ burst := by omega
  by_cases out : units = 0 ∨ units > 16384 ∨ burst = 0
  · rw [if_pos out]
    refine ⟨nofun, ?_⟩
    rintro ⟨⟨-, -, -, rfl, rfl⟩, inside, -⟩
    exact absurd out (range.2 inside)
  rw [if_neg out]
  by_cases specific : k = .specific
  · rw [if_pos specific]
    by_cases named : read.named = true
    · rw [if_pos named, Option.some.injEq, PageBody.ident.injEq]
      constructor
      · rintro ⟨rfl, rfl, rfl, rfl, rfl, rfl⟩
        exact ⟨⟨rfl, rfl, rfl, rfl, rfl⟩, range.1 out, fun _ => ⟨rfl, of_decide_eq_true named⟩, fun no => absurd specific no⟩
      · rintro ⟨⟨rfl, rfl, rfl, rfl, rfl⟩, -, tagged, -⟩
        exact ⟨rfl, rfl, rfl, (tagged specific).1.symm, rfl, rfl⟩
    · rw [if_neg named]
      refine ⟨nofun, ?_⟩
      rintro ⟨⟨-, rfl, -⟩, -, tagged, -⟩
      obtain ⟨rfl, there⟩ := tagged specific
      exact absurd (decide_eq_true there) named
  · rw [if_neg specific, Option.some.injEq, PageBody.ident.injEq]
    constructor
    · rintro ⟨rfl, rfl, rfl, rfl, rfl, rfl⟩
      exact ⟨⟨rfl, rfl, rfl, rfl, rfl⟩, range.1 out, fun yes => absurd yes specific, fun _ => rfl⟩
    · rintro ⟨⟨rfl, rfl, rfl, rfl, rfl⟩, -, -, untagged⟩
      exact ⟨rfl, rfl, rfl, (untagged specific).symm, rfl, rfl⟩

/-- The body of a page is the one that its bytes hold, each field in its range. -/
theorem pageBody_iff {bs : List Byte} {body : PageBody} : pageBody bs = some body ↔ body.fits bs := by
  have under : field bs 0 1 = body.kindCode → (pageBody bs = some body ↔ body.fits bs) := by
    intro kind
    unfold pageBody
    dsimp only
    rw [kind]
    cases body
    case ident sp k st tag units burst =>
      simp only [PageBody.kindCode, PageBody.fits, bind, Option.bind_eq_some_iff, splitOf_iff, expectKindOf_iff,
        strictnessOf_iff, identBody_iff] at kind ⊢
      constructor
      · rintro ⟨_, split, _, expects, _, strict, ⟨rfl, rfl, rfl, units, burst⟩, ⟨low, high, some_⟩, specific, other⟩
        exact ⟨kind, split, expects, strict, units, low, high, burst, some_, specific, other⟩
      · rintro ⟨-, split, expects, strict, units, low, high, burst, some_, specific, other⟩
        exact ⟨_, split, _, expects, _, strict, ⟨rfl, rfl, rfl, units, burst⟩, ⟨low, high, some_⟩, specific, other⟩
    case qualResult v lmi =>
      simp only [PageBody.kindCode, PageBody.fits, bind, Option.bind_eq_some_iff, verdictOf_iff] at kind ⊢
      constructor
      · rintro ⟨_, verdict, found⟩
        split at found
        · next le =>
          obtain ⟨rfl, rfl⟩ := PageBody.qualResult.inj (Option.some.inj found)
          exact ⟨kind, verdict, rfl, le⟩
        · exact absurd found nofun
      · rintro ⟨-, verdict, rfl, le⟩
        exact ⟨_, verdict, if_pos le⟩
    all_goals
      simp [PageBody.kindCode, PageBody.fits, Option.bind_eq_some_iff, splitOf_iff, byeReasonOf_iff, finOf_iff] at kind ⊢
      simp [kind]
  exact ⟨fun h => (under (pageBody_kind h)).1 h, fun h => (under (PageBody.fits_kind h)).2 h⟩

/-- The tests of R40 in their order. -/
theorem judgePage_checked {bs : List Byte} (length : bs.length = 16) (check : field bs 14 2 = (crc (bs.take 14)).toNat) :
    (∀ p, judgePage true bs = .ok p ↔ p.sender = Tag.unpack (BitVec.ofNat 32 (field bs 2 4)) ∧
      p.sender.chassis ≠ 0 ∧ p.body.fits bs) ∧
    ((∀ p, judgePage true bs ≠ .ok p) → judgePage true bs = .error .frame) := by
  have tests : judgePage true bs = match pageBody bs with
      | some body => if (Tag.unpack (BitVec.ofNat 32 (field bs 2 4))).named then
          .ok ⟨Tag.unpack (BitVec.ofNat 32 (field bs 2 4)), body⟩ else .error .frame
      | none => .error .frame := by
    unfold judgePage
    refine (if_neg fun x => x.elim (fun no => no rfl) fun no => no length).trans ((if_neg fun no => no check).trans ?_)
    rfl
  rw [tests]
  cases found : pageBody bs with
  | none =>
    refine ⟨fun p => ⟨nofun, fun ⟨_, _, fits⟩ => ?_⟩, fun _ => rfl⟩
    exact absurd ((pageBody_iff.2 fits).symm.trans found) nofun
  | some body =>
    have fits := pageBody_iff.1 found
    dsimp only
    by_cases named : (Tag.unpack (BitVec.ofNat 32 (field bs 2 4))).named = true
    · rw [if_pos named]
      refine ⟨fun p => ⟨fun h => ?_, fun ⟨sender, _, other⟩ => ?_⟩, fun no => absurd rfl (no _)⟩
      · obtain rfl := Except.ok.inj h
        exact ⟨rfl, of_decide_eq_true named, fits⟩
      · obtain ⟨from_, body'⟩ := p
        obtain rfl : from_ = _ := sender
        obtain rfl : body = body' := Option.some.inj (found.symm.trans (pageBody_iff.2 other))
        rfl
    · rw [if_neg named]
      refine ⟨fun p => ⟨nofun, fun ⟨sender, there, _⟩ => ?_⟩, fun _ => rfl⟩
      exact absurd (decide_eq_true (sender ▸ there)) named

/-! ## The fields of a built page (R195, R197) -/

theorem length_leBytes (k n : Nat) : (leBytes k n).length = k := by
  induction k generalizing n with
  | zero => rfl
  | succ k ih => exact congrArg (· + 1) (ih _)

theorem leVal_leBytes (k n : Nat) : leVal (leBytes k n) = n % 256 ^ k := by
  induction k generalizing n with
  | zero => exact (Nat.mod_one n).symm
  | succ k ih =>
    have low : (BitVec.ofNat 8 (n % 256)).toNat = n % 256 := Nat.mod_eq_of_lt (Nat.mod_lt n (by decide))
    change (BitVec.ofNat 8 (n % 256)).toNat + 256 * leVal (leBytes k (n / 256)) = _
    rw [low, ih, Nat.pow_succ', Nat.mod_mul]

theorem field_append_right (as bs : List Byte) (off k : Nat) : field (as ++ bs) (as.length + off) k = field bs off k := by
  unfold field
  rw [List.drop_append, List.drop_of_length_le (Nat.le_add_right _ _), Nat.add_sub_cancel_left, List.nil_append]

theorem field_append_left (as bs : List Byte) {off k : Nat} (fits : off + k ≤ as.length) :
    field (as ++ bs) off k = field as off k := by
  unfold field
  rw [List.drop_append_of_le_length (by omega), List.take_append_of_le_length (by rw [List.length_drop]; omega)]

theorem field_leBytes (k n : Nat) : field (leBytes k n) 0 k = n % 256 ^ k := by
  unfold field
  rw [List.drop_zero, List.take_of_length_le (by rw [length_leBytes]), leVal_leBytes]

/-- A field that stands at a place in its bytes. -/
theorem field_at {bs pre post : List Byte} {off k n : Nat} (eq : bs = pre ++ leBytes k n ++ post)
    (place : pre.length = off) (lt : n < 256 ^ k) : field bs off k = n := by
  rw [eq, List.append_assoc, ← place]
  refine (field_append_right pre _ 0 k).trans ?_
  rw [field_append_left _ _ (by rw [length_leBytes]; omega), field_leBytes, Nat.mod_eq_of_lt lt]

theorem length_payload (body : PageBody) : body.payload.length = 8 := by
  cases body
  all_goals simp only [PageBody.payload, byte1, zeros, List.length_append, length_leBytes, List.length_replicate]

theorem length_pageHead (t : Tag) (body : PageBody) : (pageHead t body).length = 14 := by
  simp only [pageHead, byte1, List.length_append, length_leBytes, length_payload]

theorem length_pageBytes (t : Tag) (body : PageBody) : (pageBytes t body).length = 16 := by
  rw [pageBytes, List.length_append, length_pageHead, length_leBytes]

theorem pageBytes_check (t : Tag) (body : PageBody) :
    field (pageBytes t body) 14 2 = (crc ((pageBytes t body).take 14)).toNat := by
  have head : (pageBytes t body).take 14 = pageHead t body := List.take_left' (length_pageHead t body)
  rw [head]
  exact field_at (post := []) (List.append_nil _).symm (length_pageHead t body) (BitVec.isLt _)

theorem PageBody.kindCode_lt (body : PageBody) : body.kindCode < 256 := by
  cases body <;> simp only [PageBody.kindCode, Nat.reduceLT]

theorem pageBytes_kind (t : Tag) (body : PageBody) : field (pageBytes t body) 0 1 = body.kindCode :=
  field_at (pre := []) (by simp only [pageBytes, pageHead, byte1, List.append_assoc, List.nil_append]; rfl) rfl
    body.kindCode_lt

theorem Split.code_lt (sp : Split) : sp.code < 4 := by cases sp <;> decide

theorem ExpectKind.code_lt (k : ExpectKind) : k.code < 4 := by cases k <;> decide

theorem Strictness.code_lt (st : Strictness) : st.code < 4 := by cases st <;> decide

theorem PageBody.flags_lt (body : PageBody) : body.flags < 256 := by
  cases body
  case beacon sp lane => exact sp.code_lt.trans (by decide)
  case ident sp k st tag units burst =>
    have split := sp.code_lt
    have expects := k.code_lt
    have strict := st.code_lt
    change sp.code + 4 * k.code + 16 * st.code < 256
    omega
  all_goals exact Nat.succ_pos 255

theorem pageBytes_flags (t : Tag) (body : PageBody) : field (pageBytes t body) 1 1 = body.flags :=
  field_at (pre := byte1 body.kindCode) (by simp only [pageBytes, pageHead, byte1, List.append_assoc]; rfl)
    (length_leBytes 1 _) body.flags_lt

theorem pageBytes_sender (t : Tag) (body : PageBody) : field (pageBytes t body) 2 4 = t.pack.toNat :=
  field_at (pre := byte1 body.kindCode ++ byte1 body.flags)
    (by simp only [pageBytes, pageHead, List.append_assoc]; rfl) rfl t.pack.isLt

/-- A field of the payload that stands at a place in it. -/
theorem pageBytes_payload (t : Tag) {body : PageBody} {pre post : List Byte} {off k n : Nat}
    (eq : body.payload = pre ++ leBytes k n ++ post) (place : pre.length = off) (lt : n < 256 ^ k) :
    field (pageBytes t body) (6 + off) k = n := by
  refine field_at (pre := byte1 body.kindCode ++ byte1 body.flags ++ leBytes 4 t.pack.toNat ++ pre)
    (post := post ++ leBytes 2 (crc (pageHead t body)).toNat) ?_ ?_ lt
  · simp only [pageBytes, pageHead, eq, List.append_assoc]
  · rw [List.length_append, place]
    rfl

theorem Tag.unpack_pack (t : Tag) : Tag.unpack t.pack = t := by
  obtain ⟨chassis, slot, port, leg⟩ := t
  unfold Tag.unpack Tag.pack
  rw [Tag.mk.injEq]
  refine ⟨?_, ?_, ?_, ?_⟩
  all_goals
    refine BitVec.eq_of_getLsbD_eq fun i hi => ?_
    simp only [BitVec.getLsbD_extractLsb', BitVec.getLsbD_append, hi, decide_true, Bool.true_and]
  all_goals repeat rw [if_neg (by omega)]
  · exact congrArg _ (by omega)
  all_goals rw [if_pos (by omega)]
  all_goals exact congrArg _ (by omega)

/-- The bytes of a page hold the body it was built from. -/
theorem pageBytes_fits (t : Tag) {body : PageBody} (range : body.inRange) : body.fits (pageBytes t body) := by
  have kind := pageBytes_kind t body
  have flags := pageBytes_flags t body
  cases body with
  | trainReady | trained | requal | keepalive | hold | resume => exact kind
  | beacon sp lane =>
    refine ⟨kind, ?_, ?_⟩
    · rw [flags]
      cases sp <;> rfl
    · exact pageBytes_payload t (pre := []) rfl rfl (by omega)
  | echoReq n => exact ⟨kind, pageBytes_payload t (pre := []) rfl rfl (by omega)⟩
  | bye r => exact ⟨kind, pageBytes_payload t (pre := []) rfl rfl (by cases r <;> decide)⟩
  | qualReady seed =>
    refine ⟨kind, ?_⟩
    rw [pageBytes_payload t (pre := []) (off := 0) (k := 4) (n := seed.toNat) rfl rfl seed.isLt, BitVec.ofNat_toNat]
    exact BitVec.setWidth_eq _
  | echoReply n h =>
    refine ⟨kind, pageBytes_payload t (pre := []) (by simp only [PageBody.payload, byte1, List.append_assoc]; rfl) rfl
      (by omega), ?_⟩
    exact pageBytes_payload t (pre := byte1 n.val ++ zeros 1) rfl rfl (Nat.lt_succ_of_le range)
  | qualResult v lmi =>
    refine ⟨kind, pageBytes_payload t (pre := []) (by simp only [PageBody.payload, byte1, List.append_assoc]; rfl) rfl
      (by cases v <;> decide), ?_, range⟩
    exact pageBytes_payload t (pre := byte1 v.code ++ zeros 1) rfl rfl (by change lmi ≤ 480 at range; omega)
  | ident sp k st tag units burst =>
    obtain ⟨low, high, some_, short, specific, other⟩ := range
    have units_ : field (pageBytes t (.ident sp k st tag units burst)) 10 2 = units :=
      pageBytes_payload t (pre := leBytes 4 tag.pack.toNat) rfl rfl (by omega)
    have burst_ : field (pageBytes t (.ident sp k st tag units burst)) 12 2 = burst :=
      pageBytes_payload t (pre := leBytes 4 tag.pack.toNat ++ leBytes 2 units) (post := []) (List.append_nil _).symm rfl
        (by omega)
    have tag_ : field (pageBytes t (.ident sp k st tag units burst)) 6 4 = tag.pack.toNat :=
      pageBytes_payload t (pre := []) (by simp only [PageBody.payload, List.append_assoc]; rfl) rfl tag.pack.isLt
    have split := sp.code_lt
    have expects := k.code_lt
    have strict := st.code_lt
    change _ = sp.code + 4 * k.code + 16 * st.code at flags
    refine ⟨kind, by omega, by omega, by omega, units_, low, high, burst_, some_, fun yes => ⟨?_, specific yes⟩, other⟩
    · rw [tag_, BitVec.ofNat_toNat, BitVec.setWidth_eq, Tag.unpack_pack]

/-- Settles O40: the tests in their order, and the fields of a built page read back. -/
theorem pagesAreJudged : Obligations.PagesAreJudged := by
  refine ⟨fun framed bs => ⟨fun bad => ?_, ?_⟩, fun t body named range => ?_⟩
  · refine if_pos (bad.imp_left fun no => ?_)
    rw [no]
    exact Bool.false_ne_true
  · rintro rfl length
    refine ⟨fun bad => ?_, judgePage_checked length⟩
    unfold judgePage
    rw [if_neg fun x => x.elim (fun no => no rfl) fun no => no length, if_pos bad]
  · have length := length_pageBytes t body
    refine ⟨length, ((judgePage_checked length (pageBytes_check t body)).1 _).2 ⟨?_, named, pageBytes_fits t range⟩⟩
    rw [pageBytes_sender, BitVec.ofNat_toNat, BitVec.setWidth_eq, Tag.unpack_pack]

end Sys2Proof.Machine
end


section
/-! PROOFS. The transmitter and the timers of the Page Link. -/

namespace Sys2Proof.Machine

-- One declaration at a time: the threads of a parallel elaboration exceed the memory of the check.
set_option Elab.async false

/-! ## What a transition does to the skew measurement and the engine (R102, R113) -/

theorem Link.move_skew (e : Env) (lk : Link) (st : LinkState) (en : Entry) :
    (lk.move e st en).skew = if st = .train then .gap 0 else .idle := by
  unfold Link.move Link.entrySends Link.moveUnits Link.movePages
  cases st <;> simp [LinkState.clears, Link.clearPages, Link.cancelBye]

theorem Link.leaveQualify_elsewhere {lk : Link} (h : lk.record.state ≠ .qualify) : lk.leaveQualify = lk := if_neg h

/-- The entry to QUALIFY asks the engine with its priority (R113). -/
theorem Link.move_qualify_asks (e : Env) {lk : Link} (h : lk.record.state ≠ .qualify) (en : Entry) :
    (lk.move e .qualify en).toEngine = lk.toEngine ++ [.request en.prio] := by
  unfold Link.move Link.entrySends Link.moveUnits Link.movePages
  simp [LinkState.clears, Link.leaveQualify_elsewhere h]

/-! ## The choice at a page boundary (R38, R52) -/

theorem Link.txStart_still {e : Env} {lk : Link} (now : Nat) (h : lk.sending ≠ none ∨ e.ownTag.chassis = 0) :
    lk.txStart e now = lk :=
  if_pos (h.imp Option.isSome_iff_ne_none.2 fun none_ named => absurd none_ (of_decide_eq_true named))

theorem Link.txStart_next {e : Env} {lk : Link} (now : Nat) (free : lk.sending = none) (named : e.ownTag.chassis ≠ 0) :
    lk.txStart e now = lk.beginNext e now :=
  if_neg fun h => h.elim (fun busy => Option.isSome_iff_ne_none.1 busy free) fun no => no (decide_eq_true named)

theorem Link.beginNext_flow {e : Env} {lk : Link} (now : Nat) {f : FlowPage} (owed : lk.owedFlow = some f) :
    lk.beginNext e now = { lk with owedFlow := none }.beginPage e (.flow f) f.body := by
  unfold Link.beginNext
  rw [owed]

theorem Link.beginNext_echo {e : Env} {lk : Link} (now : Nat) {o : EchoOwed} (flow : lk.owedFlow = none)
    (owed : lk.owedEcho = some o) : lk.beginNext e now =
      if o.holdTime now ≤ 65535 then
        { lk with owedEcho := none }.beginPage e (.echoReply o.seq) (.echoReply o.seq (o.holdTime now))
      else { lk with owedEcho := none }.beginQueued e := by
  unfold Link.beginNext
  rw [flow, owed]

theorem Link.beginNext_queue {e : Env} {lk : Link} (now : Nat) (flow : lk.owedFlow = none) (echo : lk.owedEcho = none) :
    lk.beginNext e now = lk.beginQueued e := by
  unfold Link.beginNext
  rw [flow, echo]

theorem Link.beginQueued_head {e : Env} {lk : Link} {it : TxItem} {rest : List TxItem} (free : lk.heldBy = none)
    (queue : lk.tx = it :: rest) : lk.beginQueued e = { lk with tx := rest }.beginPage e (.item it) (it.body e) := by
  unfold Link.beginQueued
  rw [free, queue]

theorem Link.beginQueued_none {e : Env} {lk : Link} (h : lk.heldBy ≠ none ∨ lk.tx = []) : lk.beginQueued e = lk := by
  unfold Link.beginQueued
  split
  · next free queue =>
    exact h.elim (absurd free) fun empty => absurd (empty.symm.trans queue) (List.cons_ne_nil _ _).symm
  · rfl

theorem Link.beginQueued_owedEcho (e : Env) (lk : Link) : (lk.beginQueued e).owedEcho = lk.owedEcho := by
  unfold Link.beginQueued
  split <;> rfl

/-! ## The end of a transmission (R50, R56, R69, R70) -/

theorem State.tryRunStart_undue {s : State} {l : LinkId} (h : (s.link l).runDue = false) : s.tryRunStart l = s := by
  unfold State.tryRunStart
  exact if_neg fun x => absurd (h.symm.trans x.1) Bool.false_ne_true

/-- Where the end of a page starts no run, it is a step of its link. -/
theorem pageTxEnd_ends {s : State} {l : LinkId} {now : Nat} {new : Link} (ends : (s.link l).txEnd (s.env l) now = new)
    (undue : new.runDue = false) :
    ∃ t, exec (.pageTxEnd l now) s = .next t ∧ OnlyLink l s t ∧ t.link l = new := by
  have link : (s.onLink l fun e lk => lk.txEnd e now).link l = new := (s.link_onLink l _).trans ends
  refine ⟨_, ?_, s.onLink_only l fun e lk => lk.txEnd e now, link⟩
  change Host.Outcome.next ((s.onLink l fun e lk => lk.txEnd e now).tryRunStart l) = _
  rw [State.tryRunStart_undue (link ▸ undue)]

theorem Link.runDue_elsewhere {lk : Link} (h : lk.record.state ≠ .qualify) : lk.runDue = false :=
  decide_eq_false fun x => h x.1

theorem Link.runDue_ungranted {lk : Link} (h : lk.stage.granted = false) : lk.runDue = false :=
  decide_eq_false fun x => absurd (h.symm.trans x.2.1) Bool.false_ne_true

theorem Link.deskewed_iff {lk : Link} :
    lk.deskewed = true ↔ lk.record.deskew ≠ [] ∧ ∀ x ∈ lk.record.deskew, x ≠ none := by
  unfold Link.deskewed allPresent
  rw [Bool.and_eq_true, Bool.not_eq_true', List.isEmpty_eq_false_iff, List.all_eq_true]
  simp only [Option.isSome_iff_ne_none]

/-- TRAIN_READY has been sent in VERIFY: TRAIN where the peer's has been received (R69). -/
theorem Link.trainReady_sent {e : Env} {lk : Link} (now : Nat) {b : List Byte} {high : Bool}
    (sent : lk.sending = some ⟨.item .trainReady, b, high⟩) (verify : lk.record.state = .verify)
    (passed : lk.stage.verifyPassed = true) :
    (lk.stage.trainReadyRecv = true → lk.txEnd e now =
      { lk with sending := none, stage := { lk.stage with trainReadySent := true } }.move e .train) ∧
    (lk.stage.trainReadyRecv = false → lk.txEnd e now =
      { lk with sending := none, stage := { lk.stage with trainReadySent := true } }) := by
  have ends : lk.txEnd e now = ({ lk with sending := none, stage := { lk.stage with trainReadySent := true } } : Link).tryTrain e := by
    unfold Link.txEnd
    rw [sent]
    exact if_pos ⟨verify, passed⟩
  rw [ends]
  exact ⟨fun recv => if_pos ⟨verify, passed, rfl, recv⟩,
    fun no => if_neg fun x => absurd (no.symm.trans x.2.2.2) Bool.false_ne_true⟩

/-- TRAINED has been sent in TRAIN: QUALIFY where the peer's has been received (R70). -/
theorem Link.trained_sent {e : Env} {lk : Link} (now : Nat) {b : List Byte} {high : Bool}
    (sent : lk.sending = some ⟨.item .trained, b, high⟩) (train : lk.record.state = .train) (deskewed : lk.deskewed = true) :
    (lk.stage.trainedRecv = true → lk.txEnd e now =
      { lk with sending := none, stage := { lk.stage with trainedSent := true } }.move e .qualify
        { prio := e.leg.priority }) ∧
    (lk.stage.trainedRecv = false → lk.txEnd e now =
      { lk with sending := none, stage := { lk.stage with trainedSent := true } }) := by
  have ends : lk.txEnd e now = ({ lk with sending := none, stage := { lk.stage with trainedSent := true } } : Link).tryQualify e := by
    unfold Link.txEnd
    rw [sent]
    exact if_pos ⟨train, deskewed⟩
  rw [ends]
  exact ⟨fun recv => if_pos ⟨train, rfl, recv⟩, fun no => if_neg fun x => absurd (no.symm.trans x.2.2) Bool.false_ne_true⟩

/-- The pages whose end changes nothing else. -/
def Sent.plain : Sent → Bool
  | .echoReply _ | .item .beacon | .item .ident | .item (.qualResult ..) | .item .requal | .item .keepalive
  | .item (.bye _) => true
  | .flow _ | .item (.echoReq _) | .item .trainReady | .item .trained | .item (.qualReady _) => false

theorem Link.plain_sent {e : Env} {lk : Link} (now : Nat) {what : Sent} {b : List Byte} {high : Bool}
    (sent : lk.sending = some ⟨what, b, high⟩) (plain : what.plain = true) :
    lk.txEnd e now = { lk with sending := none } := by
  unfold Link.txEnd
  rw [sent]
  cases what with
  | echoReply n => rfl
  | flow f => exact absurd plain Bool.false_ne_true
  | item it =>
    cases it
    case echoReq | trainReady | trained | qualReady => exact absurd plain Bool.false_ne_true
    all_goals rfl

/-- The choice at a page boundary, owed pages before the queue. -/
theorem pageTxStart_begins (l : LinkId) (now : Nat) (s : State) :
    ∃ t, exec (.pageTxStart l now) s = .next t ∧ OnlyLink l s t ∧
      ((s.link l).sending ≠ none ∨ (s.ownTag l).chassis = 0 → t.link l = s.link l) ∧
      ((s.link l).sending = none → (s.ownTag l).chassis ≠ 0 →
        (∀ f, (s.link l).owedFlow = some f → t.link l = { s.link l with
          owedFlow := none,
          sending := some ⟨.flow f, pageBytes (s.ownTag l) f.body, (s.link l).record.state.highRate⟩ }) ∧
        (∀ o, (s.link l).owedFlow = none → (s.link l).owedEcho = some o →
          (now - o.ended + Config.receiveSendPath ≤ 65535 → t.link l = { s.link l with
            owedEcho := none,
            sending := some ⟨.echoReply o.seq,
              pageBytes (s.ownTag l) (.echoReply o.seq (now - o.ended + Config.receiveSendPath)),
              (s.link l).record.state.highRate⟩ }) ∧
          (65535 < now - o.ended + Config.receiveSendPath → (t.link l).owedEcho = none)) ∧
        (∀ it rest, (s.link l).owedFlow = none → (s.link l).owedEcho = none → (s.link l).heldBy = none →
          (s.link l).tx = it :: rest → t.link l = { s.link l with
            tx := rest,
            sending := some ⟨.item it, pageBytes (s.ownTag l) (it.body (s.env l)),
              (s.link l).record.state.highRate⟩ }) ∧
        ((s.link l).owedFlow = none → (s.link l).owedEcho = none → (s.link l).heldBy ≠ none ∨ (s.link l).tx = [] →
          t.link l = s.link l)) := by
  obtain ⟨t, run, only, eq⟩ := onLink_step (c := .pageTxStart l now) (s := s) (l := l)
    (f := fun e lk => lk.txStart e now) rfl
  refine ⟨t, run, only, fun still => eq.trans (Link.txStart_still now still), fun free named => ?_⟩
  have next := eq.trans (Link.txStart_next now free named)
  refine ⟨fun f owed => ?_, fun o flow owed => ⟨fun le => ?_, fun gt => ?_⟩, fun it rest flow echo held queue => ?_,
    fun flow echo none_ => ?_⟩
  · exact next.trans (Link.beginNext_flow now owed)
  · exact (next.trans (Link.beginNext_echo now flow owed)).trans (if_pos le)
  · have long : ¬o.holdTime now ≤ 65535 := Nat.not_le.2 gt
    rw [next, Link.beginNext_echo now flow owed, if_neg long, Link.beginQueued_owedEcho]
  · exact (next.trans (Link.beginNext_queue now flow echo)).trans (Link.beginQueued_head held queue)
  · exact (next.trans (Link.beginNext_queue now flow echo)).trans (Link.beginQueued_none none_)

/-- Settles O43: the choice at a boundary, and the end of a page by what it is. -/
theorem transmitterChoosesAndEnds : Obligations.TransmitterChoosesAndEnds := by
  intro l now s
  refine ⟨pageTxStart_begins l now s, fun free undue => ?_, fun b h undue sent => ?_, fun b h undue sent => ?_,
    fun n b h undue sent running waiting => ?_, fun b h sent verify passed => ?_, fun b h sent train some_ all => ?_,
    fun what b h undue sent plain => ?_⟩
  · refine pageTxEnd_ends ?_ undue
    unfold Link.txEnd
    rw [free]
  · refine pageTxEnd_ends ?_ (by exact undue)
    unfold Link.txEnd
    rw [sent]
    rfl
  · refine pageTxEnd_ends ?_ (by exact undue)
    unfold Link.txEnd
    rw [sent]
  · refine pageTxEnd_ends ?_ (by exact undue)
    unfold Link.txEnd
    rw [sent]
    exact if_pos ⟨running, waiting⟩
  · obtain ⟨enters, waits⟩ := Link.trainReady_sent (e := s.env l) now sent verify passed
    cases recv : (s.link l).stage.trainReadyRecv with
    | true =>
      have plain : (s.link l).record.move (s.env l).uptime .train =
          { (s.link l).record with prev := (s.link l).record.state, state := .train } :=
        LinkRecord.move_plain _ _ _ (by rw [verify]; nofun) (by rw [verify]; nofun) nofun nofun nofun
      obtain ⟨t, run, only, eq⟩ := pageTxEnd_ends (enters recv)
        (Link.runDue_elsewhere (by rw [Link.move_record]; exact nofun))
      refine ⟨t, run, only, fun _ => ?_, nofun⟩
      rw [eq, Link.move_record, Link.move_sending, Link.move_skew, Link.move_timers]
      refine ⟨plain.trans ?_, rfl, rfl, rfl⟩
      rw [verify]
    | false =>
      obtain ⟨t, run, only, eq⟩ := pageTxEnd_ends (waits recv) (Link.runDue_elsewhere (by exact verify ▸ nofun))
      exact ⟨t, run, only, nofun, fun _ => eq⟩
  · obtain ⟨enters, waits⟩ := Link.trained_sent (e := s.env l) now sent train (Link.deskewed_iff.2 ⟨some_, all⟩)
    cases recv : (s.link l).stage.trainedRecv with
    | true =>
      obtain ⟨t, run, only, eq⟩ := pageTxEnd_ends (enters recv) (Link.runDue_ungranted (by rw [Link.move_stage]))
      refine ⟨t, run, only, fun _ => ?_, nofun⟩
      rw [eq, Link.move_record, Link.move_sending, Link.move_qualify_asks _ (by exact train ▸ nofun), Link.move_timers]
      exact ⟨rfl, train, rfl, rfl, rfl⟩
    | false =>
      obtain ⟨t, run, only, eq⟩ := pageTxEnd_ends (waits recv) (Link.runDue_elsewhere (by exact train ▸ nofun))
      exact ⟨t, run, only, nofun, fun _ => eq⟩
  · refine pageTxEnd_ends (Link.plain_sent now sent ?_) (by exact undue)
    rcases plain with listed | ⟨n, rfl⟩ | ⟨r, rfl⟩ | ⟨v, n, rfl⟩
    · exact (by decide : ∀ w ∈ [Sent.item .beacon, .item .ident, .item .requal, .item .keepalive], w.plain = true) what listed
    all_goals rfl

/-! ## Announcing (R47) -/

/-- Pages for which there is room join the queue in their order (R51). -/
theorem Link.queuePages_room {its : List TxItem} {lk : Link} (free : lk.heldBy = none)
    (room : lk.tx.length + its.length ≤ 4) : (its.foldl Link.queuePage lk).tx = lk.tx ++ its := by
  induction its generalizing lk with
  | nil => exact (List.append_nil _).symm
  | cons it its ih =>
    have short := lk.queuePage_short it (by rw [List.length_cons] at room; omega) (.inl free)
    rw [List.foldl_cons, short, ih (lk := { lk with tx := lk.tx ++ [it] }) free (by
      rw [List.length_cons] at room
      rw [List.length_append, List.length_singleton]
      omega)]
    rw [List.append_assoc, List.singleton_append]

theorem Link.directBeacons_rest (e : Env) (lk : Link) : { lk.directBeacons e with wire := lk.wire } = lk := by
  unfold Link.directBeacons
  split <;> rfl

theorem Link.qualReadyPages_mem {lk : Link} {it : TxItem} : it ∈ lk.qualReadyPages ↔
    ∃ seed, it = .qualReady seed ∧ lk.ownSeed = some seed ∧ lk.stage.granted = true ∧ lk.stage.run ≠ .ended := by
  unfold Link.qualReadyPages
  cases lk.ownSeed with
  | none => simp
  | some seed =>
    by_cases h : lk.stage.granted = true ∧ lk.stage.run ≠ .ended
    · simp [h]
    · simp only [if_neg h, List.not_mem_nil, false_iff]
      rintro ⟨_, _, _, rest⟩
      exact h rest

theorem Link.qualResultPages_mem {lk : Link} {it : TxItem} : it ∈ lk.qualResultPages ↔
    ∃ v, it = .qualResult v (lk.record.legLmi.getD 0) ∧ lk.record.localV = some v ∧ lk.stage.run = .ended ∧
      lk.record.peerV = none := by
  unfold Link.qualResultPages
  cases lk.record.localV with
  | none => simp
  | some v =>
    by_cases h : lk.stage.run = .ended ∧ lk.record.peerV = none
    · simp [h]
    · simp only [if_neg h, List.not_mem_nil, false_iff]
      rintro ⟨_, _, _, rest⟩
      exact h rest

theorem Link.length_qualReadyPages (lk : Link) : lk.qualReadyPages.length ≤ 1 := by
  unfold Link.qualReadyPages
  repeat' split
  all_goals exact Nat.le_of_ble_eq_true rfl

theorem Link.length_qualResultPages (lk : Link) : lk.qualResultPages.length ≤ 1 := by
  unfold Link.qualResultPages
  repeat' split
  all_goals exact Nat.le_of_ble_eq_true rfl

theorem Link.length_announcePages (e : Env) (lk : Link) : (lk.announcePages e).length ≤ 4 := by
  have ready := lk.length_qualReadyPages
  have result := lk.length_qualResultPages
  unfold Link.announcePages
  split
  case h_5 =>
    have requal : (if lk.stage.byRequalify = true ∧ ¬lk.stage.requalAnswered = true then [TxItem.requal] else []).length ≤ 1 := by
      split <;> decide
    rw [List.length_append, List.length_append]
    omega
  case h_1 | h_4 => split <;> decide
  case h_3 => split <;> exact Nat.le_of_ble_eq_true rfl
  all_goals decide

theorem Link.announce_tx {e : Env} {lk : Link} (free : lk.heldBy = none) (empty : lk.tx = []) :
    (lk.announce e).tx = lk.announcePages e := by
  obtain ⟨x, hx⟩ : ∃ x, x = { lk with timers := { lk.timers with announce := some (msec 1) } }.directBeacons e := ⟨_, rfl⟩
  have rest := Link.directBeacons_rest e { lk with timers := { lk.timers with announce := some (msec 1) } }
  rw [← hx] at rest
  have tx : x.tx = [] := (congrArg Link.tx rest :).trans empty
  have held : x.heldBy = none := (congrArg Link.heldBy rest :).trans free
  unfold Link.announce
  rw [← hx, Link.queuePages_room held (by rw [tx]; exact (Nat.zero_add _).trans_le (lk.length_announcePages e)), tx]
  rfl

/-- What each state announces (R47). -/
theorem Link.announcePages_spec (lk : Link) (e : Env) :
    (lk.record.state = .listen → lk.announcePages e = if e.leg.kind = .none then [] else [.beacon]) ∧
    (lk.record.state = .pairing → lk.announcePages e = [.beacon, .ident]) ∧
    (lk.record.state = .verify →
      lk.announcePages e = if lk.stage.verifyPassed then [.ident, .trainReady] else [.ident]) ∧
    (lk.record.state = .train →
      (lk.record.deskew ≠ [] ∧ (∀ x ∈ lk.record.deskew, x ≠ none) → lk.announcePages e = [.trained]) ∧
      (lk.record.deskew = [] ∨ none ∈ lk.record.deskew → lk.announcePages e = [])) ∧
    (lk.record.state = .qualify → ∀ it, it ∈ lk.announcePages e ↔
      (it = .requal ∧ lk.stage.byRequalify = true ∧ lk.stage.requalAnswered = false) ∨
      (∃ seed, it = .qualReady seed ∧ lk.ownSeed = some seed ∧ lk.stage.granted = true ∧ lk.stage.run ≠ .ended) ∨
      (∃ v, it = .qualResult v (lk.record.legLmi.getD 0) ∧ lk.record.localV = some v ∧
        lk.stage.run = .ended ∧ lk.record.peerV = none)) ∧
    (lk.record.state ∈ [LinkState.up, .off, .backoff, .held] → lk.announcePages e = []) := by
  unfold Link.announcePages
  refine ⟨fun h => ?_, fun h => ?_, fun h => ?_, fun h => ⟨fun all => ?_, fun not => ?_⟩, fun h it => ?_, fun h => ?_⟩
  · rw [h]
  · rw [h]
  · rw [h]
    cases lk.stage.verifyPassed <;> rfl
  · rw [h]
    exact if_pos (Link.deskewed_iff.2 all)
  · rw [h]
    refine if_neg fun all => ?_
    obtain ⟨some_, each⟩ := Link.deskewed_iff.1 all
    exact not.elim some_ fun absent => each none absent rfl
  · rw [h]
    simp only [List.mem_append, Link.qualReadyPages_mem, Link.qualResultPages_mem, or_assoc]
    refine or_congr ?_ Iff.rfl
    by_cases requal : lk.stage.byRequalify = true ∧ ¬lk.stage.requalAnswered = true
    · rw [if_pos requal, List.mem_singleton]
      exact ⟨fun is => ⟨is, requal.1, Bool.eq_false_iff.2 requal.2⟩, And.left⟩
    · simp only [if_neg requal, List.not_mem_nil, false_iff]
      rintro ⟨-, by_, no⟩
      exact requal ⟨by_, by rw [no]; exact Bool.false_ne_true⟩
  · generalize lk.record.state = st at h
    cases st
    case up | off | backoff | held => rfl
    all_goals exact absurd h (by decide)

/-! ## The other timers (R48, R49, R56, R57, R84) -/

theorem Link.queuePage_held (lk : Link) (held : lk.heldBy ≠ none) : (lk.queuePage .keepalive).tx = lk.tx :=
  congrArg Link.tx (if_pos ⟨Option.isSome_iff_ne_none.2 held, .inr rfl⟩)

theorem Link.byeCopy_next {lk : Link} {r : ByeReason} {n : Nat} (bye : lk.bye = some ⟨r, n + 1⟩) : lk.byeCopy =
    { lk with bye := if n = 0 then none else some ⟨r, n⟩, byeTimer := if n = 0 then none else some (msec 1) }.queuePage
      (.bye r) := by
  unfold Link.byeCopy
  rw [bye]

theorem Link.burstLimitNow_eq (e : Env) (lk : Link) :
    lk.burstLimitNow e = min e.cls.burst (lk.peerBurst.getD e.cls.burst) := by
  unfold Link.burstLimitNow
  cases lk.peerBurst with
  | none => exact (Nat.min_self _).symm
  | some b => rfl

/-- Settles O44: each timer is a step of its link that acts only where it runs. -/
theorem pageTimersPaceTheLink : Obligations.PageTimersPaceTheLink := by
  intro l s
  have ran : ∀ {t : Timer}, t ≠ none → t.isSome = true := Option.isSome_iff_ne_none.2
  have off : ∀ {t : Timer}, t = none → ¬t.isSome = true := fun h x => Option.isSome_iff_ne_none.1 x h
  refine ⟨?_, ?_, ?_, ?_, ?_, ?_, (s.link l).announcePages_spec⟩
  · obtain ⟨t, run, only, eq⟩ := onLink_step (c := .announceExpiry l) (s := s) (l := l) rfl
    refine ⟨t, run, only, ?_, fun none_ => eq.trans (if_neg (off none_)), fun some_ => ?_⟩
    · rw [eq]
      split
      · exact Link.announce_record _ _
      · rfl
    · have announced := eq.trans (if_pos (ran some_))
      rw [announced]
      exact ⟨Link.announce_timers _ _, fun empty free => Link.announce_tx free empty⟩
  · obtain ⟨t, run, only, eq⟩ := onLink_step (c := .keepaliveTimerExpiry l) (s := s) (l := l) rfl
    refine ⟨t, run, only, fun none_ => eq.trans (if_neg (off none_)), fun some_ => ?_⟩
    have queued := eq.trans (if_pos (ran some_))
    rw [queued]
    refine ⟨Link.queuePage_timers _ _, fun free room => ?_, fun held => ?_⟩
    · exact congrArg Link.tx (Link.queuePage_short _ _ (by exact room) (.inl (by exact free)))
    · exact Link.queuePage_held _ (by exact held)
  · obtain ⟨t, run, only, eq⟩ := onLink_step (c := .byeCopyDue l) (s := s) (l := l) rfl
    refine ⟨t, run, only, fun none_ => eq.trans (if_neg (off none_)), fun r some_ room => ?_⟩
    have copied := eq.trans (if_pos (ran some_))
    refine ⟨fun two => ?_, fun one => ?_⟩
    · exact (copied.trans (Link.byeCopy_next (n := 1) two)).trans (Link.queuePage_short _ _ room (.inr ⟨nofun, nofun⟩))
    · exact (copied.trans (Link.byeCopy_next (n := 0) one)).trans (Link.queuePage_short _ _ room (.inr ⟨nofun, nofun⟩))
  · exact onLink_step (c := .holdLimitExpiry l) (s := s) (l := l) (f := fun _ lk => { lk with heldBy := none }) rfl
  · obtain ⟨t, run, only, eq⟩ := onLink_step (c := .holdForceLimitExpiry l) (s := s) (l := l) rfl
    refine ⟨t, run, only, ?_⟩
    by_cases none_ : (s.link l).holdForce = none
    · rw [if_pos none_]
      exact eq.trans (if_neg (off none_))
    · rw [if_neg none_]
      exact eq.trans (if_pos (ran none_))
  · obtain ⟨t, run, only, eq⟩ := onLink_step (c := .burstIntervalEnd l) (s := s) (l := l) rfl
    refine ⟨t, run, only, ?_⟩
    by_cases none_ : (s.link l).timers.burst = none
    · rw [if_pos none_]
      exact eq.trans (if_neg (off none_))
    · rw [if_neg none_]
      refine (eq.trans (if_pos (ran none_))).trans ?_
      rw [Link.burstLimitNow_eq]
      rfl

end Sys2Proof.Machine
end


section
/-! PROOFS. The transition of R61, the timers and signals of the Link Sequencer, and the quiet states. -/

namespace Sys2Proof.Machine

-- One declaration at a time: the threads of a parallel elaboration exceed the memory of the check.
set_option Elab.async false

/-- A command that takes the oldest event of one link. -/
theorem takeEvent_step {c : Instr} {s : State} {l : LinkId} {f : Env → Link → Link} {ev : SeqEvent} {rest : List SeqEvent}
    (queue : (s.link l).inbox = ev :: rest) (run : exec c s = .next ((s.dropEvent l).onLink l f)) :
    ∃ t, exec c s = .next t ∧ OnlyLink l s t ∧ t.link l = f (s.env l) { s.link l with inbox := rest } :=
  ⟨_, run, s.takeEvent_only l f, s.link_takeEvent l f queue⟩

/-! ## The record's part of a transition (R10, R61, R72, R85) -/

theorem LinkRecord.leave_eq (r : LinkRecord) : r.leave = { r with
    upSince := if r.state = .up then none else r.upSince,
    flap := if r.state = .up then satInc 255 r.flap else r.flap,
    exhausted := if r.state = .held then false else r.exhausted } := by
  obtain ⟨_, st⟩ := r
  cases st <;> rfl

/-- The fields that a transition changes by the states it joins. -/
theorem LinkRecord.move_counts (r : LinkRecord) (u : Word) (st : LinkState) :
    (r.move u st).retries = (if st = .up then 0 else r.retries) ∧
    (r.move u st).flap = (if r.state = .up then min 255 (r.flap + 1) else r.flap) ∧
    (r.move u st).upSince = (if st = .up then some u else if r.state = .up then none else r.upSince) ∧
    (r.move u st).exhausted = (if r.state = .held then false else r.exhausted) := by
  unfold LinkRecord.move
  rw [LinkRecord.leave_eq]
  unfold LinkRecord.enter
  cases st <;> exact ⟨rfl, rfl, rfl, rfl⟩

/-- The fields that no transition changes. -/
theorem LinkRecord.move_fixed (r : LinkRecord) (u : Word) (st : LinkState) :
    (r.move u st).generation = r.generation ∧ (r.move u st).pageErrors = r.pageErrors ∧
    (r.move u st).overruns = r.overruns := by
  unfold LinkRecord.move
  rw [LinkRecord.leave_eq]
  unfold LinkRecord.enter
  cases st <;> exact ⟨rfl, rfl, rfl⟩

theorem absentLike_absent {α β : Type} (xs : List (Option α)) : ∀ x ∈ (absentLike xs : List (Option β)), x = none := by
  intro x hx
  obtain ⟨_, _, rfl⟩ := List.mem_map.1 hx
  rfl

theorem LinkRecord.move_listen (r : LinkRecord) (u : Word) :
    (r.move u .listen).neighbour = none ∧ (r.move u .listen).farExpect = none ∧ (r.move u .listen).pilot = none ∧
    (r.move u .listen).length = none ∧ (r.move u .listen).skewSpan = none ∧
    (∀ x ∈ (r.move u .listen).laneMap, x = none) ∧ (∀ x ∈ (r.move u .listen).deskew, x = none) ∧
    (r.move u .listen).laneMap.length = r.laneMap.length := by
  unfold LinkRecord.move
  rw [LinkRecord.leave_eq]
  exact ⟨rfl, rfl, rfl, rfl, rfl, absentLike_absent _, absentLike_absent _, List.length_map _⟩

theorem LinkRecord.move_unqualified (r : LinkRecord) (u : Word) {st : LinkState} (h : st = .listen ∨ st = .qualify) :
    (r.move u st).legLmi = none ∧ (r.move u st).localV = none ∧ (r.move u st).peerV = none ∧
    (r.move u st).finalV = none ∧ ∀ x ∈ (r.move u st).laneLmis, x = none := by
  unfold LinkRecord.move
  rw [LinkRecord.leave_eq]
  rcases h with rfl | rfl
  · exact ⟨rfl, rfl, rfl, rfl, absentLike_absent _⟩
  · exact ⟨rfl, rfl, rfl, rfl, absentLike_absent _⟩

theorem LinkRecord.move_observed (r : LinkRecord) (u : Word) {st : LinkState} (h : st ≠ .listen) :
    (r.move u st).neighbour = r.neighbour ∧ (r.move u st).laneMap = r.laneMap ∧ (r.move u st).length = r.length ∧
    (r.move u st).deskew = r.deskew := by
  unfold LinkRecord.move
  rw [LinkRecord.leave_eq]
  unfold LinkRecord.enter
  cases st
  case listen => exact absurd rfl h
  all_goals exact ⟨rfl, rfl, rfl, rfl⟩

/-- The record of a link that was up and is lost (R85). -/
theorem LinkRecord.move_lost {r : LinkRecord} (h : r.state = .up) (u : Word) : r.move u .backoff =
    { r with state := .backoff, prev := .up, upSince := none, flap := min 255 (r.flap + 1) } := by
  unfold LinkRecord.move
  rw [LinkRecord.leave_eq, h]
  rfl

/-! ## The Page Link's part of a transition (R49, R58) -/

/-- With no measurement running a page that joins the queue touches nothing else (R105). -/
theorem Link.queuePage_idle {lk : Link} (idle : lk.echo.running = false) (it : TxItem) :
    { lk.queuePage it with tx := lk.tx } = lk := by
  unfold Link.queuePage
  split
  · rfl
  split
  · rfl
  unfold Link.discarded
  split
  · rw [if_neg fun x => absurd (idle.symm.trans x.1) Bool.false_ne_true]
  · rfl

theorem Link.queuePages_idle {its : List TxItem} {lk : Link} (idle : lk.echo.running = false) :
    { its.foldl Link.queuePage lk with tx := lk.tx } = lk := by
  refine Link.queuePages_keep (P := fun x => { x with tx := lk.tx } = lk) (fun x it h => ?_) its lk rfl
  have still : x.echo.running = false := (congrArg (fun y : Link => y.echo.running) h :).trans idle
  exact (congrArg (fun y : Link => { y with tx := lk.tx }) (Link.queuePage_idle still it) :).trans h

theorem Link.announce_idle {lk : Link} (idle : lk.echo.running = false) (e : Env) :
    (lk.announce e).inbox = lk.inbox ∧ (lk.announce e).echo = lk.echo := by
  obtain ⟨x, hx⟩ : ∃ x, x = { lk with timers := { lk.timers with announce := some (msec 1) } }.directBeacons e := ⟨_, rfl⟩
  have rest := Link.directBeacons_rest e { lk with timers := { lk.timers with announce := some (msec 1) } }
  rw [← hx] at rest
  have still : x.echo.running = false := (congrArg (fun y : Link => y.echo.running) rest :).trans idle
  have queued := Link.queuePages_idle (its := lk.announcePages e) still
  unfold Link.announce
  rw [← hx]
  exact ⟨(congrArg Link.inbox queued :).trans (congrArg Link.inbox rest :),
    (congrArg Link.echo queued :).trans (congrArg Link.echo rest :)⟩

/-- A transition to another state than VERIFY keeps the inbox as it is. -/
theorem Link.move_inbox_same (e : Env) (lk : Link) {st : LinkState} (h : st ≠ .verify) (en : Entry) :
    (lk.move e st en).inbox = lk.inbox := by
  have k : ∀ p : Link, p.inbox = lk.inbox → p.echo.running = false → (p.announce e).inbox = lk.inbox :=
    fun p same idle => (Link.announce_idle idle e).1.trans same
  have left := lk.leaveQualify_inbox
  unfold Link.move Link.entrySends Link.moveUnits Link.movePages
  cases st <;> simp only [LinkState.clears, if_true, Bool.false_eq_true, reduceCtorEq, if_false]
  case verify => exact absurd rfl h
  case up =>
    refine (congrArg Link.inbox (Link.queuePage_idle ?_ _) :).trans (k _ left rfl)
    exact congrArg Echo.running (Link.announce_idle rfl e).2
  all_goals exact k _ left rfl

theorem Link.move_obs (e : Env) (lk : Link) (st : LinkState) (en : Entry) :
    (lk.move e st en).obs = if st = .listen then Bank.fill 8 none else lk.obs := by
  unfold Link.move Link.entrySends Link.moveUnits Link.movePages
  cases st <;> simp [LinkState.clears, Link.clearPages, Link.cancelBye]

theorem Link.move_cleared (e : Env) (lk : Link) {st : LinkState} (h : st.clears = true) (en : Entry) :
    (lk.move e st en).rx = [] ∧ (lk.move e st en).owedFlow = none ∧ (lk.move e st en).owedEcho = none ∧
    (lk.move e st en).heldBy = none ∧ (lk.move e st en).holdForce = none ∧ (lk.move e st en).delays = none ∧
    (lk.move e st en).bye = lk.bye := by
  unfold Link.move Link.entrySends Link.moveUnits Link.movePages
  cases st
  case pairing | verify | train | qualify | up => exact absurd h Bool.false_ne_true
  all_goals simp [LinkState.clears, Link.clearPages]

theorem Link.move_pairing_bye (e : Env) (lk : Link) (en : Entry) : (lk.move e .pairing en).bye = none := by
  unfold Link.move Link.entrySends Link.moveUnits Link.movePages
  simp [LinkState.clears, Link.cancelBye]

/-! ## The engine's part of a transition (R113, R116) -/

theorem Link.move_toEngine (e : Env) (lk : Link) (st : LinkState) (en : Entry) : (lk.move e st en).toEngine =
    lk.leaveQualify.toEngine ++ if st = .qualify then [.request en.prio] else [] := by
  unfold Link.move Link.entrySends Link.moveUnits Link.movePages
  cases st <;> simp [LinkState.clears, Link.clearPages, Link.cancelBye]

theorem Link.leaveQualify_departs {lk : Link} (h : lk.record.state = .qualify) :
    .departure ∈ lk.leaveQualify.toEngine := by
  unfold Link.leaveQualify
  rw [if_pos h]
  exact List.mem_append_right _ (List.mem_singleton.2 rfl)

theorem Link.move_departs (e : Env) {lk : Link} (h : lk.record.state = .qualify) (st : LinkState) (en : Entry) :
    .departure ∈ (lk.move e st en).toEngine := by
  rw [Link.move_toEngine]
  exact List.mem_append_left _ (Link.leaveQualify_departs h)

theorem Link.move_requalRef (e : Env) (lk : Link) (en : Entry) : (lk.move e .qualify en).requalRef = en.requal := rfl

/-- Settles O45: each part of R61's list by the lemma that says it. -/
theorem transitionsDoAllOfTheirList : Obligations.TransitionsDoAllOfTheirList := by
  intro e lk st en n
  have record : n.record = lk.record.move e.uptime st := Link.move_record e lk st en
  obtain ⟨retries, flap, upSince, exhausted⟩ := lk.record.move_counts e.uptime st
  obtain ⟨generation, pageErrors, overruns⟩ := lk.record.move_fixed e.uptime st
  rw [record]
  refine ⟨rfl, rfl, Link.move_gate e lk st en, Link.move_stage e lk st en, Link.move_timers e lk st en,
    LinkRecord.move_lastReason _ _ _, LinkRecord.move_adminDown _ _ _, generation, pageErrors, overruns, retries, flap,
    upSince, exhausted, fun h => ?_, fun h => LinkRecord.move_unqualified _ _ h, fun h => LinkRecord.move_observed _ _ h,
    fun h => Link.move_cleared e lk h en, fun h => ?_, fun h => Link.move_departs e h st en, fun h => ?_, ?_,
    Link.move_toLog e lk st en⟩
  · subst h
    exact LinkRecord.move_listen _ _
  · subst h
    exact Link.move_pairing_bye e lk en
  · subst h
    refine ⟨?_, Link.move_requalRef e lk en⟩
    change _ ∈ (lk.move e .qualify en).toEngine
    rw [Link.move_toEngine]
    exact List.mem_append_right _ (List.mem_singleton.2 rfl)
  · change _ ∈ (lk.move e st en).toOrder
    rw [Link.move_toOrder]
    exact List.mem_append_right _ (List.mem_singleton.2 rfl)

/-! ## Retryable failures (R67, R74, R75) -/

/-- What every retryable failure leaves, below the limit and at it. -/
theorem Link.retryable_ends (e : Env) {lk : Link} (why : Reason) (up : lk.record.state ≠ .up)
    (held : lk.record.state ≠ .held) : (lk.retryable e why).record.lastReason = why ∧
      (lk.retryable e why).record.state = (if lk.record.retries < e.leg.retryLimit then .backoff else .held) ∧
      lk.toLog <+: (lk.retryable e why).toLog := by
  by_cases below : lk.record.retries < e.leg.retryLimit
  · obtain ⟨record, -, logged⟩ := lk.retryable_below e why up held below
    rw [record, logged, if_pos below]
    exact ⟨rfl, rfl, List.prefix_refl _⟩
  · obtain ⟨record, logged⟩ := lk.retryable_limit e why up held (Nat.le_of_not_lt below)
    rw [record, logged, if_neg below]
    exact ⟨rfl, rfl, List.prefix_append _ _⟩

theorem LinkState.working_of_mem {st : LinkState} (h : st ∈ [LinkState.pairing, .verify, .train, .qualify]) :
    st ≠ .up ∧ st ≠ .held := by
  constructor
  · rintro rfl
    exact absurd h (by decide)
  · rintro rfl
    exact absurd h (by decide)

theorem lowestUnobserved_none {lk : Link} {width : Nat} (h : ∀ i : Lane, i.val < width → lk.obs[i] ≠ none) :
    lowestUnobserved lk width = none := by
  refine List.find?_eq_none.2 fun i _ x => ?_
  rw [Bool.and_eq_true, decide_eq_true_iff, Option.isNone_iff_eq_none] at x
  exact h i x.1 x.2

theorem lowestUnobserved_some {lk : Link} {width : Nat} {i : Lane} (lt : i.val < width) (missing : lk.obs[i] = none)
    (lower : ∀ k : Lane, k < i → lk.obs[k] ≠ none) : lowestUnobserved lk width = some i := by
  refine find?_allBelow.2 ⟨?_, fun k hk => ?_⟩
  · rw [missing, decide_eq_true lt]
    rfl
  · rw [Option.isNone_eq_false_iff.2 (Option.isSome_iff_ne_none.2 (lower k hk)), Bool.and_false]

/-- The expiry of a stage timer, of the pairing timer with every lane observed (R67, R69, R70, R124). -/
theorem stageExpiry_retries {l : LinkId} {s : State} {c : Instr} {why : Reason}
    (h : (c = .verifyTimerExpiry l ∧ why = .timeoutVerify ∧ (s.link l).timers.verify ≠ none) ∨
     (c = .trainTimerExpiry l ∧ why = .timeoutTrain ∧ (s.link l).timers.train ≠ none) ∨
     (c = .qualifyWaitExpiry l ∧ why = .timeoutQualify ∧ (s.link l).timers.qualifyWait ≠ none) ∨
     (c = .peerResultWaitExpiry l ∧ why = .timeoutQualify ∧ (s.link l).timers.peerResult ≠ none) ∨
     (c = .pairingTimerExpiry l ∧ why = .timeoutPairing ∧ (s.link l).timers.pairing ≠ none ∧
       ∀ i : Lane, i.val < (s.env l).width → (s.link l).obs[i] ≠ none)) :
    ∃ t, exec c s = .next t ∧ OnlyLink l s t ∧ t.link l = (s.link l).retryable (s.env l) why := by
  have ran : ∀ {t : Timer}, t ≠ none → t.isSome = true := Option.isSome_iff_ne_none.2
  rcases h with ⟨rfl, rfl, on⟩ | ⟨rfl, rfl, on⟩ | ⟨rfl, rfl, on⟩ | ⟨rfl, rfl, on⟩ | ⟨rfl, rfl, on, every⟩
  · obtain ⟨t, run, only, eq⟩ := onLink_step (c := .verifyTimerExpiry l) (s := s) (l := l) rfl
    exact ⟨t, run, only, eq.trans (if_pos (ran on))⟩
  · obtain ⟨t, run, only, eq⟩ := onLink_step (c := .trainTimerExpiry l) (s := s) (l := l) rfl
    exact ⟨t, run, only, eq.trans (if_pos (ran on))⟩
  · obtain ⟨t, run, only, eq⟩ := onLink_step (c := .qualifyWaitExpiry l) (s := s) (l := l) rfl
    exact ⟨t, run, only, eq.trans (if_pos (ran on))⟩
  · obtain ⟨t, run, only, eq⟩ := onLink_step (c := .peerResultWaitExpiry l) (s := s) (l := l) rfl
    exact ⟨t, run, only, eq.trans (if_pos (ran on))⟩
  · obtain ⟨t, run, only, eq⟩ := onLink_step (c := .pairingTimerExpiry l) (s := s) (l := l) rfl
    refine ⟨t, run, only, (eq.trans (if_pos (ran on))).trans ?_⟩
    unfold Link.pairingExpires
    rw [lowestUnobserved_none every]

/-- A timer that does not run does not expire. -/
theorem timerExpiry_stopped {l : LinkId} {s : State} {c : Instr}
    (hc : c ∈ [Instr.verifyTimerExpiry l, .trainTimerExpiry l, .qualifyWaitExpiry l, .peerResultWaitExpiry l,
      .pairingTimerExpiry l, .backoffExpiry l, .peerSilentExpiry l])
    (verify : (s.link l).timers.verify = none) (train : (s.link l).timers.train = none)
    (qualify : (s.link l).timers.qualifyWait = none) (peer : (s.link l).timers.peerResult = none)
    (pairing : (s.link l).timers.pairing = none) (backoff : (s.link l).timers.backoff = none)
    (silent : (s.link l).timers.peerSilent = none) :
    ∃ t, exec c s = .next t ∧ OnlyLink l s t ∧ t.link l = s.link l := by
  have off : ∀ {t : Timer}, t = none → ¬t.isSome = true := fun h x => Option.isSome_iff_ne_none.1 x h
  simp only [List.mem_cons, List.not_mem_nil, or_false] at hc
  rcases hc with rfl | rfl | rfl | rfl | rfl | rfl | rfl
  · obtain ⟨t, run, only, eq⟩ := onLink_step (c := .verifyTimerExpiry l) (s := s) (l := l) rfl
    exact ⟨t, run, only, eq.trans (if_neg (off verify))⟩
  · obtain ⟨t, run, only, eq⟩ := onLink_step (c := .trainTimerExpiry l) (s := s) (l := l) rfl
    exact ⟨t, run, only, eq.trans (if_neg (off train))⟩
  · obtain ⟨t, run, only, eq⟩ := onLink_step (c := .qualifyWaitExpiry l) (s := s) (l := l) rfl
    exact ⟨t, run, only, eq.trans (if_neg (off qualify))⟩
  · obtain ⟨t, run, only, eq⟩ := onLink_step (c := .peerResultWaitExpiry l) (s := s) (l := l) rfl
    exact ⟨t, run, only, eq.trans (if_neg (off peer))⟩
  · obtain ⟨t, run, only, eq⟩ := onLink_step (c := .pairingTimerExpiry l) (s := s) (l := l) rfl
    exact ⟨t, run, only, eq.trans (if_neg (off pairing))⟩
  · obtain ⟨t, run, only, eq⟩ := onLink_step (c := .backoffExpiry l) (s := s) (l := l) rfl
    exact ⟨t, run, only, eq.trans (if_neg (off backoff))⟩
  · obtain ⟨t, run, only, eq⟩ := onLink_step (c := .peerSilentExpiry l) (s := s) (l := l) rfl
    exact ⟨t, run, only, eq.trans (if_neg fun x => off silent x.1)⟩

/-- A discrepancy that is raised as a link fails stays logged. -/
theorem Link.raise_retryable (e : Env) {lk : Link} {k : DiscKind} (kind : k ≠ .heldDown) (d : Nat) (x o : Option Tag)
    (t : Word) (why : Reason) (up : lk.record.state ≠ .up) (held : lk.record.state ≠ .held) :
    ((lk.raise e k d x o t).retryable e why).record.lastReason = why ∧
    ((lk.raise e k d x o t).retryable e why).record.state =
      (if lk.record.retries < e.leg.retryLimit then .backoff else .held) ∧
    ⟨k, BitVec.ofNat 32 d, x, o, lk.record.farExpect, t⟩ ∈ ((lk.raise e k d x o t).retryable e why).toLog := by
  have record : (lk.raise e k d x o t).record = { lk.record with lastReason := .disc k } := by
    rw [Link.raise_record, if_neg kind]
  have state : (lk.raise e k d x o t).record.state = lk.record.state := by rw [record]
  have retries : (lk.raise e k d x o t).record.retries = lk.record.retries := by rw [record]
  obtain ⟨reason, ends, logged⟩ := Link.retryable_ends e (lk := lk.raise e k d x o t) why (state ▸ up) (state ▸ held)
  refine ⟨reason, retries ▸ ends, logged.subset ?_⟩
  rw [Link.raise_toLog]
  exact List.mem_append_right _ (List.mem_singleton.2 rfl)

/-- Settles O46: each expiry is a retryable failure with its own reason. -/
theorem stageExpiriesAreRetryable : Obligations.StageExpiriesAreRetryable := by
  refine ⟨fun l s c why h stage => ?_, fun l s => ⟨fun c hc verify train qualify peer pairing backoff silent =>
    timerExpiry_stopped hc verify train qualify peer pairing backoff silent, fun i on pairs lt missing lower => ?_⟩⟩
  · obtain ⟨up, held⟩ := LinkState.working_of_mem stage
    obtain ⟨t, run, only, eq⟩ := stageExpiry_retries h
    refine ⟨t, run, only, fun below => ?_, fun limit => ?_⟩
    · rw [eq]
      exact Link.retryable_below _ _ why up held below
    · rw [eq]
      exact Link.retryable_limit _ _ why up held limit
  · obtain ⟨t, run, only, eq⟩ := onLink_step (c := .pairingTimerExpiry l) (s := s) (l := l) rfl
    have expires := eq.trans (if_pos (Option.isSome_iff_ne_none.2 on))
    have missed : t.link l = ((s.link l).raise (s.env l) .laneMissing i.val (s.env l).expected
        ((s.link l).pairingObserved (s.env l)) (s.env l).uptime).retryable (s.env l) (.disc .laneMissing) := by
      rw [expires]
      unfold Link.pairingExpires
      rw [lowestUnobserved_some lt missing lower]
    obtain ⟨reason, state, logged⟩ := Link.raise_retryable (s.env l) (lk := s.link l) (k := .laneMissing) nofun i.val
      (s.env l).expected ((s.link l).pairingObserved (s.env l)) (s.env l).uptime (.disc .laneMissing)
      (by rw [pairs]; nofun) (by rw [pairs]; nofun)
    refine ⟨t, run, only, ?_⟩
    rw [missed]
    exact ⟨reason, state, _, logged, rfl, rfl, rfl, rfl⟩

/-! ## LISTEN and BACKOFF (R66, R76, R82, R83) -/

theorem Link.quietHeard_new {e : Env} {lk : Link} (new : lk.stage.heard = false) (lane : Lane) (tag : Tag) (seen : Word) :
    lk.quietHeard e lane tag seen =
      { lk.raise e .unexpectedCable lane.val none (some tag) seen with
        stage := { lk.stage with heard := true }, timers := { lk.timers with absence := some 2000000000 } } := by
  unfold Link.quietHeard
  rw [if_neg (by rw [new]; exact Bool.false_ne_true)]
  rfl

theorem Link.quietHeard_again {e : Env} {lk : Link} (again : lk.stage.heard = true) (lane : Lane) (tag : Tag) (seen : Word) :
    lk.quietHeard e lane tag seen = { lk with
      stage := { lk.stage with heard := true }, timers := { lk.timers with absence := some 2000000000 } } := by
  unfold Link.quietHeard
  rw [if_pos again]
  rfl

theorem firstValidBeacon_takes {s : State} {l : LinkId} {lane : Lane} {rest : List SeqEvent}
    (queue : (s.link l).inbox = .firstBeacon lane :: rest) :
    ∃ t, exec (.firstValidBeacon l) s = .next t ∧ OnlyLink l s t ∧
      t.link l = ({ s.link l with inbox := rest } : Link).firstReport (s.env l) lane := by
  refine takeEvent_step (f := fun e lk => lk.firstReport e lane) queue ?_
  change execFirstValidBeacon l s = _
  unfold execFirstValidBeacon
  rw [queue]

theorem quietBeacon_takes {s : State} {l : LinkId} {lane : Lane} {tag : Tag} {seen : Word} {rest : List SeqEvent}
    (queue : (s.link l).inbox = .quietBeacon lane tag seen :: rest) :
    ∃ t, exec (.quietBeacon l) s = .next t ∧ OnlyLink l s t ∧
      t.link l = if (s.link l).record.state = .listen ∧ (s.legPlan l).kind = .none then
        ({ s.link l with inbox := rest } : Link).quietHeard (s.env l) lane tag seen else { s.link l with inbox := rest } := by
  refine takeEvent_step (f := fun e lk =>
    if lk.record.state = .listen ∧ e.leg.kind = .none then lk.quietHeard e lane tag seen else lk) queue ?_
  change execQuietBeacon l s = _
  unfold execQuietBeacon
  rw [queue]

/-- The entry to PAIRING: one evaluation for each observation held, up to the first finding (R66, R94). -/
theorem Link.firstBeacon_enters (e : Env) (lk : Link) (lane : Lane) :
    (lk.firstBeacon e lane).record.state = .pairing ∧ (lk.firstBeacon e lane).record.prev = lk.record.state ∧
    (lk.firstBeacon e lane).obs = lk.obs ∧
    (lk.firstBeacon e lane).timers = { pairing := some 200000000, peerSilent := some 8000000, announce := some 1000000 } ∧
    (lk.firstBeacon e lane).bye = none ∧
    (lk.firstBeacon e lane).inbox = lk.inbox ++ evaluateEntry e lk.obs
      (lane :: ((presentObs lk.obs e.width).map (·.1)).filter fun i => !decide (i = lane)) (Bank.fill 8 none) := by
  obtain ⟨x, hx⟩ : ∃ x, x = lk.move e .pairing := ⟨_, rfl⟩
  have record : x.record = lk.record.move e.uptime .pairing := by rw [hx]; exact Link.move_record e lk .pairing {}
  have obs : x.obs = lk.obs := by rw [hx]; exact Link.move_obs e lk .pairing {}
  have timers : x.timers = { entryTimers e .pairing 0 with announce := some (msec 1) } := by
    rw [hx]
    exact Link.move_timers e lk .pairing {}
  have bye : x.bye = none := by rw [hx]; exact Link.move_pairing_bye e lk {}
  have inbox : x.inbox = lk.inbox := by rw [hx]; exact Link.move_inbox_same e lk (st := .pairing) nofun {}
  unfold Link.firstBeacon
  rw [← hx]
  refine ⟨?_, ?_, obs, timers, bye, ?_⟩
  · exact congrArg LinkRecord.state record
  · exact congrArg LinkRecord.prev record
  · change x.inbox ++ evaluateEntry e x.obs _ _ = _
    rw [inbox, obs]

/-- Settles O47: the timers and the reports of LISTEN and BACKOFF. -/
theorem quietLinksGoOn : Obligations.QuietLinksGoOn := by
  have ran : ∀ {t : Timer}, t ≠ none → t.isSome = true := Option.isSome_iff_ne_none.2
  have off : ∀ {t : Timer}, t = none → ¬t.isSome = true := fun h x => Option.isSome_iff_ne_none.1 x h
  refine ⟨fun l s => ⟨?_, ?_, fun lane tag seen rest queue listens kind => ?_⟩,
    fun l s => ⟨fun on backs => ?_, fun lane rest queue => ?_, fun lane rest queue listens kind => ?_⟩⟩
  · obtain ⟨t, run, only, eq⟩ := onLink_step (c := .presenceDeadlineExpiry l) (s := s) (l := l) rfl
    refine ⟨t, run, only, ?_⟩
    by_cases none_ : (s.link l).timers.presence = none
    · rw [if_pos none_]
      exact eq.trans (if_neg (off none_))
    · rw [if_neg none_]
      exact eq.trans (if_pos (ran none_))
  · obtain ⟨t, run, only, eq⟩ := onLink_step (c := .absenceTimerExpiry l) (s := s) (l := l) rfl
    refine ⟨t, run, only, ?_⟩
    by_cases none_ : (s.link l).timers.absence = none
    · rw [if_pos none_]
      exact eq.trans (if_neg (off none_))
    · rw [if_neg none_]
      exact eq.trans (if_pos (ran none_))
  · obtain ⟨t, run, only, eq⟩ := quietBeacon_takes queue
    rw [if_pos ⟨listens, kind⟩] at eq
    refine ⟨t, run, only, ?_⟩
    cases heard : (s.link l).stage.heard with
    | true =>
      rw [eq, Link.quietHeard_again (by exact heard)]
      exact ⟨rfl, rfl, rfl, fun _ => ⟨rfl, rfl⟩, nofun⟩
    | false =>
      rw [eq, Link.quietHeard_new (by exact heard)]
      exact ⟨rfl, rfl, rfl, nofun, fun _ => ⟨rfl, rfl⟩⟩
  · obtain ⟨t, run, only, eq⟩ := onLink_step (c := .backoffExpiry l) (s := s) (l := l) rfl
    have moved := eq.trans (if_pos (ran on))
    refine ⟨t, run, only, ?_⟩
    rw [moved, Link.move_record, Link.move_obs, Link.move_timers]
    exact ⟨rfl, backs, (LinkRecord.move_listen _ _).1, LinkRecord.move_retries _ _ _ nofun,
      LinkRecord.move_lastReason _ _ _, rfl, rfl⟩
  · obtain ⟨t, run, only, eq⟩ := firstValidBeacon_takes queue
    refine ⟨t, run, only, fun no => eq.trans (if_neg no), fun listens kind => ?_⟩
    exact (eq.trans (if_pos listens)).trans (if_pos kind)
  · obtain ⟨t, run, only, eq⟩ := firstValidBeacon_takes queue
    have enters := (eq.trans (if_pos listens)).trans (if_neg kind)
    obtain ⟨state, prev, obs, timers, bye, inbox⟩ :=
      Link.firstBeacon_enters (s.env l) { s.link l with inbox := rest } lane
    refine ⟨t, run, only, ?_⟩
    rw [enters]
    exact ⟨state, prev.trans listens, obs, timers, bye, _, inbox, rfl⟩

/-! ## Lost links (R56, R64, R80, R84, R85) -/

theorem Link.lose_spec {e : Env} {lk : Link} (h : lk.record.state = .up) (why : Reason) :
    (lk.lose e why).gate = false ∧
    (lk.lose e why).record = { lk.record with
      state := .backoff, prev := .up, lastReason := why, upSince := none, flap := min 255 (lk.record.flap + 1) } ∧
    (lk.lose e why).timers = { backoff := some 10000000, announce := some 1000000 } := by
  unfold Link.lose
  rw [Link.move_gate, Link.move_record, Link.move_timers]
  exact ⟨rfl, LinkRecord.move_lost (r := { lk.record with lastReason := why }) h _, rfl⟩

theorem Link.failBy_up {e : Env} {lk : Link} (h : lk.record.state = .up) (why : Reason) : lk.failBy e why = lk.lose e why := by
  unfold Link.failBy
  rw [h]

theorem Link.failBy_stage {e : Env} {lk : Link} (h : lk.record.state ∈ [LinkState.pairing, .verify, .train, .qualify])
    (why : Reason) : lk.failBy e why = lk.retryable e why := by
  unfold Link.failBy
  split
  · next up => exact absurd (up ▸ h) (by decide)
  all_goals first | rfl | next st => exact absurd (st ▸ h) (by decide)

theorem Link.signalLost_up {e : Env} {lk : Link} (h : lk.record.state = .up) (lane : Lane) :
    lk.signalLost e lane = lk.lose e .linkLost := by
  unfold Link.signalLost
  rw [h]

theorem Link.signalLost_stage {e : Env} {lk : Link} {lane : Lane}
    (h : lk.record.state ∈ [LinkState.verify, .train, .qualify] ∨ (lk.record.state = .pairing ∧ lk.obs[lane] ≠ none)) :
    lk.signalLost e lane = lk.retryable e .linkLost := by
  unfold Link.signalLost
  rcases h with h | ⟨h, there⟩
  · split
    case h_2 | h_3 | h_4 => rfl
    all_goals next st => exact absurd (st ▸ h) (by decide)
  · rw [h]
    exact if_pos (Option.isSome_iff_ne_none.2 there)

theorem Link.signalLost_still {e : Env} {lk : Link} {lane : Lane}
    (h : lk.record.state.conversing = false ∨ (lk.record.state = .pairing ∧ lk.obs[lane] = none)) :
    lk.signalLost e lane = lk := by
  unfold Link.signalLost
  rcases h with h | ⟨h, none_⟩
  · split
    case h_1 st | h_2 st | h_3 st | h_4 st | h_5 st => exact absurd (st ▸ h) nofun
    all_goals rfl
  · rw [h]
    exact if_neg fun x => Option.isSome_iff_ne_none.1 x none_

theorem lossOfSignal_loses {port : PortId} {lane near : Lane} {s : State} {l : LinkId}
    (owns : nearLane (s.splitOf port) lane = (legOf l, near)) (own : portOf l = port) :
    ∃ t, exec (.lossOfSignal port lane) s = .next t ∧ OnlyLink l s t ∧ t.link l = (s.link l).signalLost (s.env l) near := by
  refine onLink_step (f := fun e lk => lk.signalLost e near) ?_
  change execLossOfSignal port lane s = _
  unfold execLossOfSignal
  rw [owns]
  dsimp only
  rw [← own, linkOf_portOf]

theorem peerSilentExpiry_fails {s : State} {l : LinkId} (on : (s.link l).timers.peerSilent ≠ none)
    (free : (s.link l).holdForce = none) :
    ∃ t, exec (.peerSilentExpiry l) s = .next t ∧ OnlyLink l s t ∧ t.link l = (s.link l).failBy (s.env l) .peerSilent := by
  obtain ⟨t, run, only, eq⟩ := onLink_step (c := .peerSilentExpiry l) (s := s) (l := l) rfl
  exact ⟨t, run, only, eq.trans (if_pos ⟨Option.isSome_iff_ne_none.2 on, Option.isNone_iff_eq_none.2 free⟩)⟩

theorem laneStreamError_counts {s : State} {l : LinkId} (up : (s.link l).record.state = .up) :
    ∃ t, exec (.laneStreamError l) s = .next t ∧ OnlyLink l s t ∧
      t.link l = if (s.link l).burstLimit < min 65536 ((s.link l).burstCount + 1) then
        ({ s.link l with burstCount := min 65536 ((s.link l).burstCount + 1) } : Link).lose (s.env l) .errorBurst
        else { s.link l with burstCount := min 65536 ((s.link l).burstCount + 1) } := by
  obtain ⟨t, run, only, eq⟩ := onLink_step (c := .laneStreamError l) (s := s) (l := l) rfl
  exact ⟨t, run, only, eq.trans (if_pos up)⟩

/-- Settles O48: a link in UP is lost, one in bring-up fails with a retry. -/
theorem upLinksAreLost : Obligations.UpLinksAreLost := by
  intro l s port lane near own owns
  refine ⟨fun c why h up => ?_, fun c why h => ?_, fun held => ?_, fun up few => ?_, fun still => ?_⟩
  · have lost : ∃ (t : State) (lk : Link), exec c s = .next t ∧ OnlyLink l s t ∧ t.link l = lk.lose (s.env l) why ∧
        lk.record = (s.link l).record := by
      rcases h with ⟨rfl, rfl, on, free⟩ | ⟨rfl, rfl, many⟩ | ⟨rfl, rfl⟩
      · obtain ⟨t, run, only, eq⟩ := peerSilentExpiry_fails on free
        exact ⟨t, _, run, only, eq.trans (Link.failBy_up up _), rfl⟩
      · obtain ⟨t, run, only, eq⟩ := laneStreamError_counts up
        exact ⟨t, _, run, only, eq.trans (if_pos many), rfl⟩
      · obtain ⟨t, run, only, eq⟩ := lossOfSignal_loses owns own
        exact ⟨t, _, run, only, eq.trans (Link.signalLost_up up near), rfl⟩
    obtain ⟨t, lk, run, only, eq, record⟩ := lost
    refine ⟨t, run, only, ?_⟩
    rw [eq, ← record]
    exact Link.lose_spec (by rw [record]; exact up) why
  · have failed : ∃ t, exec c s = .next t ∧ OnlyLink l s t ∧ t.link l = (s.link l).retryable (s.env l) why ∧
        (s.link l).record.state ∈ [LinkState.pairing, .verify, .train, .qualify] := by
      rcases h with ⟨rfl, rfl, on, free, stage⟩ | ⟨rfl, rfl, stage⟩
      · obtain ⟨t, run, only, eq⟩ := peerSilentExpiry_fails on free
        exact ⟨t, run, only, eq.trans (Link.failBy_stage stage _), stage⟩
      · obtain ⟨t, run, only, eq⟩ := lossOfSignal_loses owns own
        refine ⟨t, run, only, eq.trans (Link.signalLost_stage stage), ?_⟩
        exact stage.elim (List.mem_cons_of_mem _) fun pairs => pairs.1 ▸ List.mem_cons_self
    obtain ⟨t, run, only, eq, stage⟩ := failed
    obtain ⟨notUp, notHeld⟩ := LinkState.working_of_mem stage
    obtain ⟨reason, state, -⟩ := Link.retryable_ends (s.env l) why notUp notHeld
    refine ⟨t, run, only, ?_⟩
    rw [eq]
    exact ⟨reason, state⟩
  · obtain ⟨t, run, only, eq⟩ := onLink_step (c := .peerSilentExpiry l) (s := s) (l := l) rfl
    exact ⟨t, run, only, eq.trans (if_neg fun x => held (Option.isNone_iff_eq_none.1 x.2))⟩
  · obtain ⟨t, run, only, eq⟩ := laneStreamError_counts up
    exact ⟨t, run, only, eq.trans (if_neg (Nat.not_lt.2 few))⟩
  · obtain ⟨t, run, only, eq⟩ := lossOfSignal_loses owns own
    exact ⟨t, run, only, eq.trans (Link.signalLost_still still)⟩

end Sys2Proof.Machine
end


section
/-! PROOFS. The reports of lane discovery and IDENT: refusals, the entry to VERIFY, the far expectation. -/

namespace Sys2Proof.Machine

-- One declaration at a time: the threads of a parallel elaboration exceed the memory of the check.
set_option Elab.async false

/-! ## A discrepancy that refuses the cable (R77, R78) -/

theorem Link.raise_refuse (e : Env) {lk : Link} {k : DiscKind} (kind : k ≠ .heldDown) (d : Nat) (x o : Option Tag) (t : Word)
    (talks : lk.record.state.conversing = true) (up : lk.record.state ≠ .up) :
    ((lk.raise e k d x o t).refuse e).record =
      { lk.record with state := .held, prev := lk.record.state, lastReason := .disc k } ∧
    ((lk.raise e k d x o t).refuse e).bye = some ⟨.refused, 2⟩ ∧
    ((lk.raise e k d x o t).refuse e).toLog = lk.toLog ++ [⟨k, BitVec.ofNat 32 d, x, o, lk.record.farExpect, t⟩] := by
  have held : lk.record.state ≠ .held := by
    intro h
    rw [h] at talks
    exact absurd talks Bool.false_ne_true
  have record : (lk.raise e k d x o t).record = { lk.record with lastReason := .disc k } := by
    rw [Link.raise_record, if_neg kind]
  refine ⟨?_, Link.refuse_bye e (by rw [record]; exact talks), ?_⟩
  · rw [Link.refuse_record, record]
    exact LinkRecord.move_plain _ _ _ up held nofun nofun nofun
  · rw [Link.refuse_toLog, Link.raise_toLog]

/-! ## The first two checks of VERIFY (R30, R69, R100) -/

theorem Link.identityFault_none {e : Env} {lk : Link} {n : Tag} (there : lk.neighbourTag = some n)
    (right : ∀ x, e.expected = some x → x = n) : lk.identityFault e = none := by
  unfold Link.identityFault
  rw [there]
  cases want : e.expected with
  | none => rfl
  | some x => exact if_pos (right x want).symm

theorem Link.identityFault_wrong {e : Env} {lk : Link} {n x : Tag} (there : lk.neighbourTag = some n)
    (want : e.expected = some x) (wrong : x ≠ n) : lk.identityFault e = some n := by
  unfold Link.identityFault
  rw [there, want]
  exact if_neg fun same => wrong same.symm

theorem laneOrderFault_none {map : List (Option LaneEntry)}
    (h : ∀ (i : Lane) en, map[i.val]? = some (some en) → en.far = i ∧ en.inverted = false) : laneOrderFault map = none := by
  cases found : laneOrderFault map with
  | none => rfl
  | some i =>
    obtain ⟨k, en, there, wrong⟩ := laneOrderFault_isSome.1 ⟨i, found⟩
    obtain ⟨far, upright⟩ := h k en there
    exact wrong.elim (absurd far) fun inverted => absurd (upright.symm.trans inverted) Bool.false_ne_true

/-- The lowest near lane whose entry is not its own lane upright. -/
theorem laneOrderFault_lowest {map : List (Option LaneEntry)} {i : Lane} {en : LaneEntry}
    (there : map[i.val]? = some (some en)) (wrong : en.far ≠ i ∨ en.inverted = true)
    (lower : ∀ (k : Lane) en', k < i → map[k.val]? = some (some en') → en'.far = k ∧ en'.inverted = false) :
    laneOrderFault map = some i := by
  refine find?_allBelow.2 ⟨?_, fun k hk => ?_⟩
  · rw [List.getD_eq_getElem?_getD, there]
    simpa using wrong
  · rw [List.getD_eq_getElem?_getD]
    cases at_ : map[k.val]? with
    | none => rfl
    | some x =>
      cases x with
      | none => rfl
      | some en' =>
        obtain ⟨far, upright⟩ := lower k en' hk at_
        simp [far, upright]

theorem Link.orderFault_allow {e : Env} (lk : Link) (h : e.leg.remap = .allow) : lk.orderFault e = none :=
  if_neg (by rw [h]; exact nofun)

theorem Link.orderFault_forbid {e : Env} (lk : Link) (h : e.leg.remap = .forbid) :
    lk.orderFault e = laneOrderFault lk.record.laneMap := if_pos h

theorem Link.verifyOrder_passes {e : Env} {lk : Link} (h : lk.orderFault e = none) : lk.verifyOrder e = lk := by
  unfold Link.verifyOrder
  rw [h]

theorem Link.verifyOrder_fails {e : Env} {lk : Link} {i : Lane} (h : lk.orderFault e = some i) :
    lk.verifyOrder e = if e.leg.strict = .enforce then (lk.raiseOrder e i).refuse e else lk.raiseOrder e i := by
  unfold Link.verifyOrder
  rw [h]

/-- What the lane order check leaves of the discrepancies. -/
theorem Link.verifyOrder_toLog (e : Env) (lk : Link) : lk.toLog <+: (lk.verifyOrder e).toLog := by
  cases h : lk.orderFault e with
  | none => rw [Link.verifyOrder_passes h]
  | some i =>
    have raised : lk.toLog <+: (lk.raiseOrder e i).toLog := (lk.raise_checked e _ _ _ _ _).log
    rw [Link.verifyOrder_fails h]
    split
    · rw [Link.refuse_toLog]
      exact raised
    · exact raised

/-! ## The entry to VERIFY (R67, R69) -/

theorem Link.enterVerify_passes {e : Env} {lk : Link}
    (h : (lk.move e .verify).identityFault e = none ∨ e.leg.strict = .report) :
    lk.enterVerify e = ((lk.move e .verify).checkIdentity e).verifyOrder e := by
  unfold Link.enterVerify Link.checkIdentity
  dsimp only
  cases found : (lk.move e .verify).identityFault e with
  | none => rfl
  | some n =>
    have report : e.leg.strict = .report := h.resolve_left (by rw [found]; exact nofun)
    exact if_neg (by rw [report]; exact nofun)

theorem Link.enterVerify_fails {e : Env} {lk : Link} {n : Tag} (h : (lk.move e .verify).identityFault e = some n) :
    lk.enterVerify e = if e.leg.strict = .enforce then ((lk.move e .verify).raiseIdentity e n).refuse e
      else ((lk.move e .verify).raiseIdentity e n).verifyOrder e := by
  unfold Link.enterVerify
  dsimp only
  rw [h]

/-- The record at the entry to VERIFY. -/
theorem Link.move_verify_record (e : Env) {lk : Link} (h : lk.record.state = .pairing) :
    (lk.move e .verify).record = { lk.record with prev := .pairing, state := .verify } := by
  rw [Link.move_record]
  refine (LinkRecord.move_plain lk.record e.uptime .verify (by rw [h]; nofun) (by rw [h]; nofun) nofun nofun nofun).trans ?_
  rw [h]

theorem Link.move_verify_neighbourTag (e : Env) {lk : Link} (h : lk.record.state = .pairing) :
    (lk.move e .verify).neighbourTag = lk.neighbourTag := by
  unfold Link.neighbourTag
  rw [Link.move_verify_record e h]

/-- What VERIFY queues at its entry: IDENT, and then the first ECHO_REQ (R47, R105; assumption log 14). -/
theorem Link.move_verify_tx (e : Env) {lk : Link} (empty : lk.tx = []) :
    (lk.move e .verify).tx = [.ident, .echoReq 0] ∧ (lk.move e .verify).echo.running = true := by
  unfold Link.move
  dsimp only
  generalize hm : Link.moveUnits e (Link.movePages _ .verify) .verify = m
  have tx : m.tx = [] := by
    rw [← hm]
    exact (lk.leaveQualify_tx).trans empty
  have echo : m.echo.running = true := by rw [← hm]; rfl
  have pages : m.announcePages e = [.ident] := by rw [← hm]; rfl
  obtain ⟨x, hx⟩ : ∃ x, x = { m with timers := { m.timers with announce := some (msec 1) } }.directBeacons e := ⟨_, rfl⟩
  have rest := Link.directBeacons_rest e { m with timers := { m.timers with announce := some (msec 1) } }
  rw [← hx] at rest
  have xtx : x.tx = [] := (congrArg Link.tx rest :).trans tx
  have first : m.announce e = { x with tx := [.ident] } := by
    unfold Link.announce
    rw [pages, ← hx]
    have short := x.queuePage_short .ident (by rw [xtx]; decide) (.inr ⟨nofun, nofun⟩)
    rw [xtx] at short
    exact short
  have second : (m.announce e).queuePage (.echoReq 0) = { x with tx := [.ident, .echoReq 0] } := by
    rw [first]
    exact Link.queuePage_short { x with tx := [.ident] } (.echoReq 0) (by exact (by decide : 1 < 4)) (.inr ⟨nofun, nofun⟩)
  change ((m.announce e).queuePage (.echoReq 0)).tx = _ ∧ ((m.announce e).queuePage (.echoReq 0)).echo.running = _
  rw [second]
  exact ⟨rfl, (congrArg (fun y : Link => y.echo.running) rest :).trans echo⟩

/-- A wrong identity at the entry to VERIFY is raised, and refuses the cable under ENFORCE. -/
theorem Link.enterVerify_wrong {e : Env} {lk : Link} {n x : Tag} (pairs : lk.record.state = .pairing)
    (there : lk.neighbourTag = some n) (want : e.expected = some x) (wrong : x ≠ n) :
    (∃ d ∈ (lk.enterVerify e).toLog, d.kind = .unexpectedNeighbour ∧ d.detail = n.pack ∧ d.expected = some x ∧
      d.observed = some n) ∧
    (e.leg.strict = .enforce → (lk.enterVerify e).record.state = .held ∧
      (lk.enterVerify e).record.lastReason = .disc .unexpectedNeighbour ∧
      (lk.enterVerify e).bye = some ⟨.refused, 2⟩) := by
  have record := Link.move_verify_record e pairs
  have tag := (Link.move_verify_neighbourTag e pairs).trans there
  have eq := Link.enterVerify_fails (Link.identityFault_wrong tag want wrong)
  obtain ⟨refused, bye, log⟩ := Link.raise_refuse e (lk := lk.move e .verify) (k := .unexpectedNeighbour) nofun n.pack.toNat
    e.expected (some n) e.uptime (by rw [record]; rfl) (by rw [record]; exact nofun)
  have logged : ((lk.move e .verify).raiseIdentity e n).toLog <+: (lk.enterVerify e).toLog := by
    rw [eq]
    split
    · rw [Link.refuse_toLog]
    · exact Link.verifyOrder_toLog e _
  have member : (⟨.unexpectedNeighbour, BitVec.ofNat 32 n.pack.toNat, e.expected, some n,
      (lk.move e .verify).record.farExpect, e.uptime⟩ : Discrepancy) ∈
        ((lk.move e .verify).raiseIdentity e n).toLog := by
    unfold Link.raiseIdentity
    rw [Link.raise_toLog]
    exact List.mem_append_right _ (List.mem_singleton.2 rfl)
  refine ⟨⟨_, logged.subset member, rfl, ?_, want, rfl⟩, fun enforce => ?_⟩
  · exact (BitVec.ofNat_toNat 32 _).trans (BitVec.setWidth_eq _)
  · rw [eq, if_pos enforce]
    have refuse : ((lk.move e .verify).raiseIdentity e n).refuse e =
        ((lk.move e .verify).raise e .unexpectedNeighbour n.pack.toNat e.expected (some n) e.uptime).refuse e := rfl
    rw [refuse, refused, bye]
    exact ⟨rfl, rfl, rfl⟩

/-- A link whose identity is right, or is only reported, at the lane order check. -/
theorem Link.enterVerify_identified {e : Env} {lk : Link} {n : Tag} (pairs : lk.record.state = .pairing)
    (there : lk.neighbourTag = some n) (right : (∀ x, e.expected = some x → x = n) ∨ e.leg.strict = .report) :
    ∃ x, (lk.move e .verify).Checked x ∧ lk.enterVerify e = x.verifyOrder e :=
  ⟨_, (lk.move e .verify).checkIdentity_checked e, Link.enterVerify_passes (right.imp_left fun all =>
    Link.identityFault_none ((Link.move_verify_neighbourTag e pairs).trans there) all)⟩

/-- A link that stays in VERIFY after its entry. -/
theorem Link.Checked.verifies {e : Env} {lk x : Link} (pairs : lk.record.state = .pairing)
    (h : (lk.move e .verify).Checked x) :
    x.record.state = .verify ∧ x.record.prev = .pairing ∧
    x.timers = { verify := some 50000000, peerSilent := some 8000000, announce := some 1000000 } ∧
    (lk.tx = [] → x.tx = [.ident, .echoReq 0] ∧ x.echo.running = true) ∧ x.record.laneMap = lk.record.laneMap := by
  have record := Link.move_verify_record e pairs
  refine ⟨?_, ?_, ?_, fun empty => ?_, ?_⟩
  · exact (congrArg (fun y : Link => y.record.state) h.rest :).trans (congrArg LinkRecord.state record)
  · exact (congrArg (fun y : Link => y.record.prev) h.rest :).trans (congrArg LinkRecord.prev record)
  · exact (congrArg Link.timers h.rest :).trans (Link.move_timers e lk .verify {})
  · obtain ⟨tx, echo⟩ := Link.move_verify_tx e empty
    exact ⟨(congrArg Link.tx h.rest :).trans tx, (congrArg (fun y : Link => y.echo.running) h.rest :).trans echo⟩
  · exact h.laneMap.trans (congrArg LinkRecord.laneMap record :)

/-- A lane order that fails at the entry to VERIFY, with its lowest lane (R78, R100). -/
theorem Link.verifyOrder_lowest {e : Env} {lk : Link} (verify : lk.record.state = .verify) {i : Lane}
    (fault : lk.orderFault e = some i) :
    (∃ d ∈ (lk.verifyOrder e).toLog, d.kind = .laneOrder ∧ d.detail = BitVec.ofNat 32 i.val) ∧
    (e.leg.strict = .enforce → (lk.verifyOrder e).record.state = .held ∧
      (lk.verifyOrder e).record.lastReason = .disc .laneOrder ∧ (lk.verifyOrder e).bye = some ⟨.refused, 2⟩) ∧
    (e.leg.strict = .report → (lk.verifyOrder e).record.state = .verify) := by
  obtain ⟨refused, bye, log⟩ := Link.raise_refuse e (lk := lk) (k := .laneOrder) nofun i.val e.expected lk.neighbourTag
    e.uptime (by rw [verify]; rfl) (by rw [verify]; exact nofun)
  have refuse : (lk.raiseOrder e i).refuse e =
      (lk.raise e .laneOrder i.val e.expected lk.neighbourTag e.uptime).refuse e := rfl
  rw [Link.verifyOrder_fails fault]
  cases strict : e.leg.strict with
  | enforce =>
    rw [if_pos rfl, refuse, refused, bye, log]
    exact ⟨⟨_, List.mem_append_right _ (List.mem_singleton.2 rfl), rfl, rfl⟩, fun _ => ⟨rfl, rfl, rfl⟩, nofun⟩
  | report =>
    rw [if_neg nofun]
    have member : (⟨.laneOrder, BitVec.ofNat 32 i.val, e.expected, lk.neighbourTag, lk.record.farExpect,
        e.uptime⟩ : Discrepancy) ∈ (lk.raiseOrder e i).toLog := by
      unfold Link.raiseOrder
      rw [Link.raise_toLog]
      exact List.mem_append_right _ (List.mem_singleton.2 rfl)
    refine ⟨⟨_, member, rfl, rfl⟩, nofun, fun _ => ?_⟩
    · exact (Link.Checked.kept (lk.raise_checked e _ _ _ _ _)).1.trans verify

/-! ## Map reports (R67, R97, R98) -/

theorem mapFinding_takes {s : State} {l : LinkId} {f : Finding} {rest : List SeqEvent}
    (queue : (s.link l).inbox = .mapFinding f :: rest) :
    ∃ t, exec (.mapFinding l) s = .next t ∧ OnlyLink l s t ∧ t.link l =
      if (s.link l).record.state = .pairing then
        ({ s.link l with inbox := rest } : Link).fatal (s.env l) f.kind f.lane.val f.observed f.seen
      else { s.link l with inbox := rest } := by
  refine takeEvent_step (f := fun e lk =>
    if lk.record.state = .pairing then lk.fatal e f.kind f.lane.val f.observed f.seen else lk) queue ?_
  change execMapFinding l s = _
  unfold execMapFinding
  rw [queue]

theorem mapOutcome_takes {s : State} {l : LinkId} {b : Bool} {rest : List SeqEvent}
    (queue : (s.link l).inbox = .mapOutcome b :: rest) (pairs : (s.link l).record.state = .pairing) :
    ∃ t, exec (.mapOutcome l) s = .next t ∧ OnlyLink l s t ∧ t.link l =
      ({ s.link l with inbox := rest, stage := { (s.link l).stage with mapComplete := b } } : Link).tryVerify (s.env l) := by
  have step := takeEvent_step (c := .mapOutcome l) (f := fun e lk =>
    if lk.record.state = .pairing then ({ lk with stage := { lk.stage with mapComplete := b } } : Link).tryVerify e else lk)
    queue ?_
  · obtain ⟨t, run, only, eq⟩ := step
    exact ⟨t, run, only, eq.trans (if_pos pairs)⟩
  · change execMapOutcome l s = _
    unfold execMapOutcome
    rw [queue]

theorem Link.tryVerify_waits {e : Env} {lk : Link} (h : lk.stage.mapComplete = false ∨ lk.record.neighbour = none) :
    lk.tryVerify e = lk := by
  refine if_neg fun ⟨_, complete, there⟩ => h.elim (fun no => ?_) fun none_ => ?_
  · exact absurd (no.symm.trans complete) Bool.false_ne_true
  · exact Option.isSome_iff_ne_none.1 there none_

theorem Link.tryVerify_enters {e : Env} {lk : Link} (pairs : lk.record.state = .pairing)
    (complete : lk.stage.mapComplete = true) {n : Neighbour} (there : lk.record.neighbour = some n) :
    lk.tryVerify e = lk.enterVerify e :=
  if_pos ⟨pairs, complete, Option.isSome_iff_exists.2 ⟨n, there⟩⟩

/-! ## IDENT (R67, R73) -/

theorem identReceived_takes {s : State} {l : LinkId} {sender tag : Tag} {sp : Split} {k : ExpectKind} {st : Strictness}
    {u b : Nat} {rest : List SeqEvent} (queue : (s.link l).inbox = .page ⟨sender, .ident sp k st tag u b⟩ :: rest) :
    ∃ t, exec (.identReceived l) s = .next t ∧ OnlyLink l s t ∧ t.link l =
      ({ s.link l with inbox := rest } : Link).identArrives (s.env l) sender sp k st tag u b := by
  refine takeEvent_step (f := fun e lk => lk.identArrives e sender sp k st tag u b) queue ?_
  change execIdentReceived l s = _
  unfold execIdentReceived
  rw [queue]

theorem Link.identArrives_verify {e : Env} {lk : Link} (verify : lk.record.state = .verify) (sender tag : Tag) (sp : Split)
    (k : ExpectKind) (st : Strictness) (u b : Nat) : lk.identArrives e sender sp k st tag u b =
      if lk.neighbourTag = some sender then
        if sp ≠ e.split then lk.fatal e .splitMismatch lk.pilotDetail sender e.uptime
        else (lk.takePeerClass u b).takeFarExpect e k st tag
      else lk := by
  unfold Link.identArrives Link.fromNeighbour
  rw [verify]
  simp only [decide_eq_true_iff]

theorem Link.identArrives_pairing {e : Env} {lk : Link} (pairs : lk.record.state = .pairing) (sender tag : Tag) (sp : Split)
    (k : ExpectKind) (st : Strictness) (u b : Nat) : lk.identArrives e sender sp k st tag u b =
      if lk.pilotTag = some sender then
        if sender = e.ownTag then lk.fatal e .loopedToSelf lk.pilotDetail sender e.uptime
        else if sp ≠ e.split then lk.fatal e .splitMismatch lk.pilotDetail sender e.uptime
        else (({ lk.takePeerClass u b with record :=
          { lk.record with neighbour := some (lk.record.neighbour.getD ⟨sender, sp⟩) } } : Link).takeFarExpect e k st
            tag).tryVerify e
      else lk := by
  unfold Link.identArrives
  rw [pairs]
  rfl

/-- The far expectation that a page gives (R67). -/
def farOf (k : ExpectKind) (tag : Tag) : FarExpect := ⟨k, if k = .specific then some tag else none⟩

theorem Link.takeFarExpect_same {e : Env} {lk : Link} {k : ExpectKind} {tag : Tag} (st : Strictness)
    (h : lk.record.farExpect = some (farOf k tag) ∨ k ≠ .specific ∨ tag = e.ownTag) :
    lk.takeFarExpect e k st tag = { lk with record := { lk.record with farExpect := some (farOf k tag) } } :=
  if_neg fun ⟨differs, specific, other⟩ => h.elim differs fun h => h.elim (absurd specific) other

theorem Link.takeFarExpect_new {e : Env} {lk : Link} {k : ExpectKind} {tag : Tag} (st : Strictness)
    (differs : lk.record.farExpect ≠ some (farOf k tag)) (specific : k = .specific) (other : tag ≠ e.ownTag) :
    lk.takeFarExpect e k st tag =
      ({ lk with record := { lk.record with farExpect := some (farOf k tag) } } : Link).raise e .peerMismatch st.code
        (some tag) (some e.ownTag) e.uptime :=
  if_pos ⟨differs, specific, other⟩

/-- What the far expectation of a page leaves of the link. -/
theorem Link.takeFarExpect_checked (e : Env) (lk : Link) (k : ExpectKind) (st : Strictness) (tag : Tag) :
    ({ lk with record := { lk.record with farExpect := some (farOf k tag) } } : Link).Checked
      (lk.takeFarExpect e k st tag) := by
  by_cases h : lk.record.farExpect = some (farOf k tag) ∨ k ≠ .specific ∨ tag = e.ownTag
  · rw [Link.takeFarExpect_same st h]
    exact .refl _
  · rw [not_or, not_or, not_not] at h
    obtain ⟨differs, specific, other⟩ := h
    rw [Link.takeFarExpect_new st differs specific other]
    exact Link.raise_checked e _ _ _ _ _ _

/-- IDENT in VERIFY by its sender and its split. -/
theorem ident_verify {s : State} {l : LinkId} {sender tag : Tag} {sp : Split} {k : ExpectKind} {st : Strictness}
    {u b : Nat} {rest : List SeqEvent} (queue : (s.link l).inbox = .page ⟨sender, .ident sp k st tag u b⟩ :: rest)
    (verify : (s.link l).record.state = .verify) :
    ∃ t, exec (.identReceived l) s = .next t ∧ OnlyLink l s t ∧
      ((s.link l).neighbourTag ≠ some sender → t.link l = { s.link l with inbox := rest }) ∧
      ((s.link l).neighbourTag = some sender → sp ≠ s.splitOf (portOf l) →
        (t.link l).record = { (s.link l).record with
          state := .held, prev := .verify, lastReason := .disc .splitMismatch } ∧
        (t.link l).bye = some ⟨.refused, 2⟩) ∧
      ((s.link l).neighbourTag = some sender → sp = s.splitOf (portOf l) →
        (t.link l).peerUnits = some u ∧ (t.link l).peerBurst = some b ∧ (t.link l).inbox = rest ∧
        ((s.link l).record.farExpect = some (farOf k tag) ∨ k ≠ .specific ∨ tag = s.ownTag l →
          (t.link l).record = { (s.link l).record with farExpect := some (farOf k tag) } ∧
          (t.link l).toLog = (s.link l).toLog) ∧
        ((s.link l).record.farExpect ≠ some (farOf k tag) → k = .specific → tag ≠ s.ownTag l →
          (t.link l).record = { (s.link l).record with
            farExpect := some (farOf k tag), lastReason := .disc .peerMismatch } ∧
          (t.link l).toLog = (s.link l).toLog ++ [⟨.peerMismatch, BitVec.ofNat 32 st.code, some tag,
            some (s.ownTag l), some (farOf k tag), s.uptime⟩])) := by
  obtain ⟨t, run, only, arrives⟩ := identReceived_takes queue
  obtain ⟨lk, hlk⟩ : ∃ lk : Link, lk = { s.link l with inbox := rest } := ⟨_, rfl⟩
  have record : lk.record = (s.link l).record := by rw [hlk]
  have neighbour : lk.neighbourTag = (s.link l).neighbourTag := by rw [hlk]; rfl
  have inbox : lk.inbox = rest := by rw [hlk]
  have log : lk.toLog = (s.link l).toLog := by rw [hlk]
  rw [← hlk] at arrives ⊢
  have eq := arrives.trans (Link.identArrives_verify (record ▸ verify) sender tag sp k st u b)
  rw [neighbour] at eq
  rw [← record, ← log]
  refine ⟨t, run, only, fun other => eq.trans (if_neg other), fun from_ differs => ?_, fun from_ same => ?_⟩
  · have fatal := (eq.trans (if_pos from_)).trans (if_pos differs)
    obtain ⟨refused, bye, -⟩ := Link.raise_refuse (s.env l) (lk := lk) (k := .splitMismatch) nofun lk.pilotDetail
      (s.env l).expected (some sender) (s.env l).uptime (by rw [record, verify]; rfl) (by rw [record, verify]; exact nofun)
    rw [fatal]
    refine ⟨refused.trans ?_, bye⟩
    rw [record, verify]
  · have taken := (eq.trans (if_pos from_)).trans (if_neg (not_not.2 same))
    have checked := Link.takeFarExpect_checked (s.env l) (lk.takePeerClass u b) k st tag
    rw [← taken] at checked
    refine ⟨(congrArg Link.peerUnits checked.rest :), (congrArg Link.peerBurst checked.rest :),
      (congrArg Link.inbox checked.rest :).trans inbox, fun known => ?_, fun differs specific other => ?_⟩
    · rw [taken, Link.takeFarExpect_same st (by exact known)]
      exact ⟨rfl, rfl⟩
    · rw [taken, Link.takeFarExpect_new st (by exact differs) specific other, Link.raise_record, Link.raise_toLog,
        if_neg nofun]
      exact ⟨rfl, rfl⟩

/-- IDENT in PAIRING by its sender and its split. -/
theorem ident_pairing {s : State} {l : LinkId} {sender tag : Tag} {sp : Split} {k : ExpectKind} {st : Strictness}
    {u b : Nat} {rest : List SeqEvent} (queue : (s.link l).inbox = .page ⟨sender, .ident sp k st tag u b⟩ :: rest)
    (pairs : (s.link l).record.state = .pairing) :
    ∃ t, exec (.identReceived l) s = .next t ∧ OnlyLink l s t ∧
      ((s.link l).pilotTag ≠ some sender → t.link l = { s.link l with inbox := rest }) ∧
      ((s.link l).pilotTag = some sender → sender = s.ownTag l ∨ sp ≠ s.splitOf (portOf l) →
        (t.link l).record = { (s.link l).record with
          state := .held, prev := .pairing,
          lastReason := .disc (if sender = s.ownTag l then .loopedToSelf else .splitMismatch) } ∧
        (t.link l).bye = some ⟨.refused, 2⟩) ∧
      ((s.link l).pilotTag = some sender → sender ≠ s.ownTag l → sp = s.splitOf (portOf l) → ∃ lk : Link,
        lk.record.farExpect = (s.link l).record.farExpect ∧ lk.toLog = (s.link l).toLog ∧
        lk.record.lastReason = (s.link l).record.lastReason ∧ lk.record.state = .pairing ∧
        lk.stage = (s.link l).stage ∧ lk.peerUnits = some u ∧ lk.peerBurst = some b ∧
        lk.record.neighbour = some ((s.link l).record.neighbour.getD ⟨sender, sp⟩) ∧
        t.link l = (lk.takeFarExpect (s.env l) k st tag).tryVerify (s.env l)) := by
  obtain ⟨t, run, only, arrives⟩ := identReceived_takes queue
  obtain ⟨lk, hlk⟩ : ∃ lk : Link, lk = { s.link l with inbox := rest } := ⟨_, rfl⟩
  have record : lk.record = (s.link l).record := by rw [hlk]
  have stage : lk.stage = (s.link l).stage := by rw [hlk]
  have pilot : lk.pilotTag = (s.link l).pilotTag := by rw [hlk]; rfl
  have log : lk.toLog = (s.link l).toLog := by rw [hlk]
  have state : lk.record.state = .pairing := record ▸ pairs
  rw [← hlk] at arrives ⊢
  have eq := arrives.trans (Link.identArrives_pairing state sender tag sp k st u b)
  rw [pilot] at eq
  refine ⟨t, run, only, fun other => eq.trans (if_neg other), fun from_ bad => ?_, fun from_ other same => ?_⟩
  · have fatal : ∀ kind : DiscKind, kind ≠ .heldDown →
        t.link l = lk.fatal (s.env l) kind lk.pilotDetail sender (s.env l).uptime →
        (t.link l).record = { (s.link l).record with state := .held, prev := .pairing, lastReason := .disc kind } ∧
          (t.link l).bye = some ⟨.refused, 2⟩ := by
      intro kind notDown refuses
      obtain ⟨refused, bye, -⟩ := Link.raise_refuse (s.env l) (lk := lk) notDown lk.pilotDetail
        (s.env l).expected (some sender) (s.env l).uptime (by rw [state]; rfl) (by rw [state]; exact nofun)
      rw [refuses]
      refine ⟨refused.trans ?_, bye⟩
      rw [record, pairs]
    by_cases own : sender = s.ownTag l
    · rw [if_pos own]
      exact fatal _ nofun ((eq.trans (if_pos from_)).trans (if_pos own))
    · rw [if_neg own]
      exact fatal _ nofun (((eq.trans (if_pos from_)).trans (if_neg own)).trans (if_pos (bad.resolve_left own)))
  · refine ⟨_, ?_, ?_, ?_, ?_, ?_, ?_, ?_, ?_,
      ((eq.trans (if_pos from_)).trans (if_neg other)).trans (if_neg (not_not.2 same))⟩
    · exact (congrArg LinkRecord.farExpect record :)
    · exact log
    · exact (congrArg LinkRecord.lastReason record :)
    · exact state
    · exact stage
    · rfl
    · rfl
    · exact congrArg (fun r : LinkRecord => some (r.neighbour.getD ⟨sender, sp⟩)) record

/-- Settles O49: a finding refuses, an outcome or IDENT may enter VERIFY, whose first checks decide. -/
theorem mapReportsAndIdentAreActedOn : Obligations.MapReportsAndIdentAreActedOn := by
  refine ⟨fun l s rest pairs => ⟨fun f queue kind => ?_, fun b queue => ?_⟩,
    fun l s rest sender tag sp k st u b queue => ⟨fun verify => ?_, fun pairs => ?_⟩⟩
  · obtain ⟨t, run, only, eq⟩ := mapFinding_takes queue
    rw [if_pos pairs] at eq
    obtain ⟨refused, bye, log⟩ := Link.raise_refuse (s.env l) (lk := { s.link l with inbox := rest }) kind f.lane.val
      (s.env l).expected (some f.observed) f.seen (by rw [pairs]; rfl) (by rw [pairs]; exact nofun)
    refine ⟨t, run, only, ?_⟩
    rw [eq]
    refine ⟨refused.trans ?_, bye, log⟩
    rw [pairs]
  · obtain ⟨t, run, only, eq⟩ := mapOutcome_takes queue pairs
    refine ⟨t, run, only, fun waits => eq.trans (Link.tryVerify_waits waits), fun n complete there => ?_⟩
    obtain ⟨lk, hlk⟩ : ∃ lk : Link, lk =
      { s.link l with inbox := rest, stage := { (s.link l).stage with mapComplete := b } } := ⟨_, rfl⟩
    rw [← hlk] at eq
    have record : lk.record = (s.link l).record := by rw [hlk]
    have tx : lk.tx = (s.link l).tx := by rw [hlk]
    have state : lk.record.state = .pairing := record ▸ pairs
    have neighbour : lk.record.neighbour = some n := record ▸ there
    have enters := eq.trans (Link.tryVerify_enters state (by rw [hlk]; exact complete) neighbour)
    have tag : lk.neighbourTag = some n.tag := by unfold Link.neighbourTag; rw [neighbour]; rfl
    refine ⟨fun x want wrong => ?_, fun right allow => ?_, fun right forbid => ?_⟩
    · rw [enters]
      exact Link.enterVerify_wrong state tag want wrong
    · obtain ⟨x, checked, ends⟩ := Link.enterVerify_identified (e := s.env l) state tag right
      obtain ⟨verify, prev, timers, sends, -⟩ := checked.verifies state
      rw [enters, ends, Link.verifyOrder_passes (x.orderFault_allow allow), ← tx]
      exact ⟨verify, prev, timers, sends⟩
    · obtain ⟨x, checked, ends⟩ := Link.enterVerify_identified (e := s.env l) state tag right
      obtain ⟨verify, -, -, -, map⟩ := checked.verifies state
      have fault : x.orderFault (s.env l) = laneOrderFault (s.link l).record.laneMap :=
        (x.orderFault_forbid forbid).trans (congrArg laneOrderFault (map.trans (congrArg LinkRecord.laneMap record)))
      rw [enters, ends]
      refine ⟨fun straight => ?_, fun i en at_ wrong lower => ?_⟩
      · rw [Link.verifyOrder_passes (fault.trans (laneOrderFault_none straight))]
        exact verify
      · exact Link.verifyOrder_lowest verify (fault.trans (laneOrderFault_lowest at_ wrong lower))
  · obtain ⟨t, run, only, other, refuses, taken⟩ := ident_verify queue verify
    refine ⟨t, run, only, other, refuses, fun from_ same => ?_⟩
    obtain ⟨units, burst, inbox, known, new⟩ := taken from_ same
    refine ⟨units, burst, inbox, fun far is => ?_⟩
    subst is
    exact ⟨known, new⟩
  · obtain ⟨t, run, only, other, refuses, taken⟩ := ident_pairing queue pairs
    refine ⟨t, run, only, other, refuses, fun from_ notOwn same incomplete => ?_,
      fun from_ notOwn same complete any allow => ?_⟩
    · obtain ⟨lk, far, log, reason, state, stage, units, burst, neighbour, eq⟩ := taken from_ notOwn same
      have checked := Link.takeFarExpect_checked (s.env l) lk k st tag
      have still : t.link l = lk.takeFarExpect (s.env l) k st tag := by
        refine eq.trans (Link.tryVerify_waits (.inl ?_))
        exact ((congrArg (fun y : Link => y.stage.mapComplete) checked.rest :).trans (congrArg Stage.mapComplete stage)).trans
          incomplete
      rw [← still] at checked
      refine ⟨checked.kept.1.trans state, (congrArg Link.peerUnits checked.rest :).trans units,
        (congrArg Link.peerBurst checked.rest :).trans burst,
        (congrArg (fun y : Link => y.record.neighbour) checked.rest :).trans neighbour,
        (congrArg (fun y : Link => y.record.farExpect) checked.rest :), fun differs specific other => ?_, fun known => ?_⟩
      · have shown : farOf k tag = ⟨k, some tag⟩ := by unfold farOf; rw [if_pos specific]
        rw [still, Link.takeFarExpect_new st (by rw [far]; exact differs) specific other, Link.raise_record,
          Link.raise_toLog, if_neg nofun, shown, log]
        exact ⟨rfl, rfl⟩
      · rw [still, Link.takeFarExpect_same st (by
          rw [far]
          exact known.elim (fun h => .inr (.inl h)) fun h => h.elim (fun h => .inr (.inr h)) .inl)]
        exact ⟨log, reason⟩
    · obtain ⟨lk, -, -, -, state, stage, -, -, neighbour, eq⟩ := taken from_ notOwn same
      have checked := Link.takeFarExpect_checked (s.env l) lk k st tag
      generalize lk.takeFarExpect (s.env l) k st tag = x at eq checked
      have xpairs : x.record.state = .pairing := checked.kept.1.trans state
      have xneighbour : x.record.neighbour = _ :=
        (congrArg (fun y : Link => y.record.neighbour) checked.rest :).trans neighbour
      have xcomplete : x.stage.mapComplete = true :=
        ((congrArg (fun y : Link => y.stage.mapComplete) checked.rest :).trans (congrArg Stage.mapComplete stage)).trans
          complete
      have xtag : x.neighbourTag = some ((s.link l).record.neighbour.getD ⟨sender, sp⟩).tag := by
        unfold Link.neighbourTag
        rw [xneighbour]
        rfl
      obtain ⟨y, entered, ends⟩ := Link.enterVerify_identified (e := s.env l) xpairs xtag
        (.inl fun z want => absurd (any.symm.trans want) nofun)
      rw [eq, Link.tryVerify_enters xpairs xcomplete xneighbour, ends, Link.verifyOrder_passes (y.orderFault_allow allow)]
      exact (entered.verifies xpairs).1

end Sys2Proof.Machine
end


section
/-! PROOFS. The pages of VERIFY, TRAIN, QUALIFY and UP as they reach the sequencer: training, verdicts, the end of a
conversation. -/

namespace Sys2Proof.Machine

-- One declaration at a time: the threads of a parallel elaboration exceed the memory of the check.
set_option Elab.async false

/-! ## TRAIN_READY and TRAINED (R69, R70, R73) -/

theorem Link.fromNeighbour_iff {lk : Link} {t : Tag} : lk.fromNeighbour t = true ↔ lk.neighbourTag = some t :=
  decide_eq_true_iff

theorem trainReadyReceived_takes {s : State} {l : LinkId} {sender : Tag} {rest : List SeqEvent}
    (queue : (s.link l).inbox = .page ⟨sender, .trainReady⟩ :: rest) :
    ∃ t, exec (.trainReadyReceived l) s = .next t ∧ OnlyLink l s t ∧
      t.link l = ({ s.link l with inbox := rest } : Link).trainReadyArrives (s.env l) sender := by
  refine takeEvent_step (f := fun e lk => lk.trainReadyArrives e sender) queue ?_
  change execTrainReadyReceived l s = _
  unfold execTrainReadyReceived
  rw [queue]

theorem trainedReceived_takes {s : State} {l : LinkId} {sender : Tag} {rest : List SeqEvent}
    (queue : (s.link l).inbox = .page ⟨sender, .trained⟩ :: rest) :
    ∃ t, exec (.trainedReceived l) s = .next t ∧ OnlyLink l s t ∧
      t.link l = ({ s.link l with inbox := rest } : Link).trainedArrives (s.env l) sender := by
  refine takeEvent_step (f := fun e lk => lk.trainedArrives e sender) queue ?_
  change execTrainedReceived l s = _
  unfold execTrainedReceived
  rw [queue]

theorem Link.trainReadyArrives_other {e : Env} {lk : Link} {t : Tag} (h : lk.neighbourTag ≠ some t) :
    lk.trainReadyArrives e t = lk := if_neg fun x => h (Link.fromNeighbour_iff.1 x)

theorem Link.trainReadyArrives_verify {e : Env} {lk : Link} {t : Tag} (from_ : lk.neighbourTag = some t)
    (verify : lk.record.state = .verify) : lk.trainReadyArrives e t =
      ({ lk with stage := { lk.stage with trainReadyRecv := true } } : Link).tryTrain e := by
  unfold Link.trainReadyArrives
  rw [if_pos (Link.fromNeighbour_iff.2 from_), verify]

theorem Link.trainReadyArrives_train {e : Env} {lk : Link} {t : Tag} (from_ : lk.neighbourTag = some t)
    (train : lk.record.state = .train) : lk.trainReadyArrives e t = lk.queuePage .trainReady := by
  unfold Link.trainReadyArrives
  rw [if_pos (Link.fromNeighbour_iff.2 from_), train]

theorem Link.trainedArrives_other {e : Env} {lk : Link} {t : Tag} (h : lk.neighbourTag ≠ some t) :
    lk.trainedArrives e t = lk := if_neg fun x => h (Link.fromNeighbour_iff.1 x)

theorem Link.trainedArrives_train {e : Env} {lk : Link} {t : Tag} (from_ : lk.neighbourTag = some t)
    (train : lk.record.state = .train) : lk.trainedArrives e t =
      ({ lk with stage := { lk.stage with trainedRecv := true } } : Link).tryQualify e := by
  unfold Link.trainedArrives
  rw [if_pos (Link.fromNeighbour_iff.2 from_), train]

theorem Link.trainedArrives_qualify {e : Env} {lk : Link} {t : Tag} (from_ : lk.neighbourTag = some t)
    (qualify : lk.record.state = .qualify) : lk.trainedArrives e t = lk.queuePage .trained := by
  unfold Link.trainedArrives
  rw [if_pos (Link.fromNeighbour_iff.2 from_), qualify]

/-- The entry to TRAIN from VERIFY (R69, R102). -/
theorem Link.move_train (e : Env) {lk : Link} (verify : lk.record.state = .verify) :
    (lk.move e .train).record = { lk.record with state := .train, prev := .verify } ∧
    (lk.move e .train).skew = .gap 0 ∧
    (lk.move e .train).timers = { train := some 100000000, announce := some 1000000 } := by
  rw [Link.move_record, Link.move_skew, Link.move_timers]
  refine ⟨(LinkRecord.move_plain lk.record e.uptime .train (by rw [verify]; nofun) (by rw [verify]; nofun) nofun nofun
    nofun).trans ?_, rfl, rfl⟩
  rw [verify]

/-- Settles O50: the two pages by the state they find, from the neighbour alone. -/
theorem trainingPagesAdvanceTheLink : Obligations.TrainingPagesAdvanceTheLink := by
  intro l s sender rest
  refine ⟨fun queue => ?_, fun queue => ?_⟩
  · obtain ⟨t, run, only, eq⟩ := trainReadyReceived_takes queue
    refine ⟨t, run, only, fun other => eq.trans (Link.trainReadyArrives_other other),
      fun from_ => ⟨fun verify passed sent => ?_, fun verify waits => ?_, fun train room => ?_⟩⟩
    · have enters := (eq.trans (Link.trainReadyArrives_verify from_ verify)).trans (if_pos ⟨verify, passed, sent, rfl⟩)
      rw [enters]
      exact Link.move_train (s.env l) (by exact verify)
    · refine (eq.trans (Link.trainReadyArrives_verify from_ verify)).trans (if_neg fun ⟨_, passed, sent, _⟩ => ?_)
      exact waits.elim (fun no => absurd (no.symm.trans passed) Bool.false_ne_true)
        fun no => absurd (no.symm.trans sent) Bool.false_ne_true
    · exact (eq.trans (Link.trainReadyArrives_train from_ train)).trans
        (Link.queuePage_short _ _ room (.inr ⟨nofun, nofun⟩))
  · obtain ⟨t, run, only, eq⟩ := trainedReceived_takes queue
    refine ⟨t, run, only, fun other => eq.trans (Link.trainedArrives_other other),
      fun from_ => ⟨fun train sent => ?_, fun train unsent => ?_, fun qualify room => ?_⟩⟩
    · have enters := (eq.trans (Link.trainedArrives_train from_ train)).trans (if_pos ⟨train, sent, rfl⟩)
      rw [enters, Link.move_record, Link.move_qualify_asks _ (by exact train ▸ nofun), Link.move_timers]
      exact ⟨rfl, train, rfl, rfl⟩
    · exact (eq.trans (Link.trainedArrives_train from_ train)).trans
        (if_neg fun ⟨_, sent, _⟩ => absurd (unsent.symm.trans sent) Bool.false_ne_true)
    · exact (eq.trans (Link.trainedArrives_qualify from_ qualify)).trans
        (Link.queuePage_short _ _ room (.inr ⟨nofun, nofun⟩))

/-! ## What a failure leaves beside its record (R58, R61, R116) -/

/-- The qualification fields stay but on entry to LISTEN and QUALIFY (R10). -/
theorem LinkRecord.move_qualified (r : LinkRecord) (u : Word) {st : LinkState} (listen : st ≠ .listen)
    (qualify : st ≠ .qualify) : (r.move u st).legLmi = r.legLmi ∧ (r.move u st).localV = r.localV ∧
    (r.move u st).peerV = r.peerV ∧ (r.move u st).finalV = r.finalV ∧ (r.move u st).laneLmis = r.laneLmis := by
  unfold LinkRecord.move
  rw [LinkRecord.leave_eq]
  unfold LinkRecord.enter
  cases st
  case listen => exact absurd rfl listen
  case qualify => exact absurd rfl qualify
  all_goals exact ⟨rfl, rfl, rfl, rfl, rfl⟩

theorem Link.leaveQualify_toOrder (lk : Link) : lk.toOrder <+: lk.leaveQualify.toOrder := by
  unfold Link.leaveQualify
  split
  · cases lk.requalRef with
    | none => exact List.prefix_refl _
    | some ref => exact List.prefix_append _ _
  · exact List.prefix_refl _

theorem Link.move_toOrder_kept (e : Env) (lk : Link) (st : LinkState) (en : Entry) :
    lk.toOrder <+: (lk.move e st en).toOrder := by
  rw [Link.move_toOrder]
  exact lk.leaveQualify_toOrder.trans (List.prefix_append _ _)

/-- In BACKOFF and HELD only BYE copies wait to be sent. -/
theorem Link.move_quiet_tx (e : Env) (lk : Link) {st : LinkState} (h : st = .backoff ∨ st = .held) (en : Entry) :
    (lk.move e st en).tx = lk.tx.filter (·.isBye) := by
  have announced : ∀ m : Link, (m.record.state = .backoff ∨ m.record.state = .held) → (m.announce e).tx = m.tx := by
    intro m quiet
    have none_ : m.announcePages e = [] := by
      unfold Link.announcePages
      rcases quiet with q | q <;> rw [q]
    unfold Link.announce
    rw [none_]
    exact (congrArg Link.tx (Link.directBeacons_rest e { m with timers := { m.timers with announce := some (msec 1) } }) :)
  have left := lk.leaveQualify_tx
  rcases h with rfl | rfl
  · exact (announced _ (.inl rfl)).trans (congrArg (List.filter fun it : TxItem => it.isBye) left)
  · exact (announced _ (.inr rfl)).trans (congrArg (List.filter fun it : TxItem => it.isBye) left)

/-- What a link keeps of `old` after a retryable failure, beside its record. -/
structure Link.Failed (old new : Link) : Prop where
  sending : new.sending = old.sending
  gate : new.gate = false
  tx : ∀ it ∈ new.tx, it.isBye = true
  toOrder : old.toOrder <+: new.toOrder
  departs : old.record.state = .qualify → .departure ∈ new.toEngine

theorem Link.move_failed (e : Env) (lk : Link) {st : LinkState} (h : st = .backoff ∨ st = .held) (en : Entry) :
    lk.Failed (lk.move e st en) where
  sending := Link.move_sending e lk st en
  gate := by
    rw [Link.move_gate]
    rcases h with rfl | rfl <;> rfl
  tx := by
    rw [Link.move_quiet_tx e lk h]
    exact fun it hit => (List.mem_filter.1 hit).2
  toOrder := Link.move_toOrder_kept e lk st en
  departs q := Link.move_departs e q st en

theorem Link.retryable_failed (e : Env) (lk : Link) (why : Reason) : lk.Failed (lk.retryable e why) := by
  unfold Link.retryable
  dsimp only
  split
  · have moved := Link.move_failed e { (lk.setReason why) with
      record := { (lk.setReason why).record with retries := (lk.setReason why).record.retries + 1 } } (.inl rfl)
      { backoff := msec 10 * 2 ^ ((lk.setReason why).record.retries + 1 - 1) }
    exact ⟨moved.sending, moved.gate, moved.tx, moved.toOrder, moved.departs⟩
  · have moved := Link.move_failed e (lk.setReason why) (st := .held) (.inr rfl) {}
    refine ⟨?_, ?_, ?_, ?_, ?_⟩
    · rw [Link.raise_sending]
      exact moved.sending
    · rw [Link.raise_gate]
      exact moved.gate
    · rw [Link.raise_tx]
      exact moved.tx
    · rw [Link.raise_toOrder]
      exact moved.toOrder.trans (List.prefix_append _ _)
    · rw [Link.raise_toEngine]
      exact moved.departs

/-- The record of a retryable failure keeps the qualification fields. -/
theorem Link.retryable_qualified (e : Env) {lk : Link} (why : Reason) (up : lk.record.state ≠ .up)
    (held : lk.record.state ≠ .held) : (lk.retryable e why).record.localV = lk.record.localV ∧
    (lk.retryable e why).record.peerV = lk.record.peerV ∧ (lk.retryable e why).record.finalV = lk.record.finalV ∧
    (lk.retryable e why).record.legLmi = lk.record.legLmi ∧ (lk.retryable e why).record.laneLmis = lk.record.laneLmis := by
  by_cases below : lk.record.retries < e.leg.retryLimit
  · rw [(lk.retryable_below e why up held below).1]
    exact ⟨rfl, rfl, rfl, rfl, rfl⟩
  · rw [(lk.retryable_limit e why up held (Nat.le_of_not_lt below)).1]
    exact ⟨rfl, rfl, rfl, rfl, rfl⟩

/-! ## The final verdict (R71, R123) -/

/-- What the final verdict `own.worse peer` makes of `old`, whose two verdicts are present. -/
structure Decided (e : Env) (own peer : Verdict) (leg : Nat) (old new : Link) : Prop where
  localV : new.record.localV = some own
  peerV : new.record.peerV = some peer
  finalV : new.record.finalV = some (own.worse peer)
  legLmi : new.record.legLmi = some leg
  laneLmis : new.record.laneLmis = old.record.laneLmis
  event : OrdMsg.event ⟨.verdict (own.worse peer) leg, e.uptime, e.reading⟩ ∈ new.toOrder
  departs : .departure ∈ new.toEngine
  sending : new.sending = old.sending
  pass : own.worse peer = .pass → new.record.state = .up ∧ new.gate = true ∧ new.record.retries = 0 ∧
    new.record.upSince = some e.uptime ∧ new.toLog = old.toLog
  marginal : own.worse peer = .marginal → new.record.state = .up ∧ new.gate = true ∧
    new.record.lastReason = .disc .qualityMarginal
  fail : own.worse peer = .fail → new.record.lastReason = .disc .qualityFail ∧ new.gate = false ∧
    new.record.state = (if old.record.retries < e.leg.retryLimit then .backoff else .held) ∧ ∀ it ∈ new.tx, it.isBye = true

/-- PASS and MARGINAL end in UP. -/
theorem Link.move_up_decided (e : Env) {own peer : Verdict} {leg : Nat} {old lk : Link} {v : Verdict}
    (is : own.worse peer = v) (notFail : v ≠ .fail) (qualify : lk.record.state = .qualify)
    (record : lk.record.localV = some own ∧ lk.record.peerV = some peer ∧ lk.record.finalV = some v ∧
      lk.record.legLmi = some leg ∧ lk.record.laneLmis = old.record.laneLmis) (sending : lk.sending = old.sending)
    (log : v = .pass → lk.toLog = old.toLog) (reason : v = .marginal → lk.record.lastReason = .disc .qualityMarginal) :
    Decided e own peer leg old ((lk.verdictEvent e v leg).move e .up) := by
  obtain ⟨localV, peerV, finalV, legLmi, laneLmis⟩ := record
  obtain ⟨mLeg, mLocal, mPeer, mFinal, mLmis⟩ :=
    LinkRecord.move_qualified lk.record e.uptime (st := .up) nofun nofun
  obtain ⟨retries, -, upSince, -⟩ := lk.record.move_counts e.uptime .up
  have moved : ((lk.verdictEvent e v leg).move e .up).record = lk.record.move e.uptime .up := Link.move_record _ _ _ _
  subst is
  refine ⟨?_, ?_, ?_, ?_, ?_, ?_, Link.move_departs e (by exact qualify) _ _, ?_, fun pass => ?_, fun marginal => ?_,
    fun fail => absurd fail notFail⟩
  · rw [moved, mLocal, localV]
  · rw [moved, mPeer, peerV]
  · rw [moved, mFinal, finalV]
  · rw [moved, mLeg, legLmi]
  · rw [moved, mLmis, laneLmis]
  · exact (Link.move_toOrder_kept e (lk.verdictEvent e _ leg) .up {}).subset
      (List.mem_append_right _ (List.mem_singleton.2 rfl))
  · rw [Link.move_sending]
    exact sending
  · rw [moved, Link.move_gate, Link.move_toLog]
    exact ⟨rfl, rfl, retries, upSince, log pass⟩
  · rw [moved, Link.move_gate, LinkRecord.move_lastReason]
    exact ⟨rfl, rfl, reason marginal⟩

/-- The final verdict of a link in QUALIFY whose two verdicts are present. -/
theorem Link.finalVerdict_decided (e : Env) {own peer : Verdict} {leg : Nat} {lk : Link}
    (qualify : lk.record.state = .qualify) (localV : lk.record.localV = some own) (peerV : lk.record.peerV = some peer)
    (legLmi : lk.record.legLmi = some leg) : Decided e own peer leg lk (lk.finalVerdict e) := by
  have legIs : lk.record.legLmi.getD 0 = leg := by rw [legLmi]; rfl
  unfold Link.finalVerdict
  rw [localV, peerV]
  dsimp only
  rw [legIs]
  cases is : own.worse peer with
  | pass =>
    exact Link.move_up_decided e is nofun (by exact qualify) ⟨localV, peerV, rfl, legLmi, rfl⟩ rfl (fun _ => rfl) nofun
  | marginal =>
    refine Link.move_up_decided e is nofun ?_ ?_ ?_ nofun fun _ => ?_
    · rw [Link.raise_record]
      exact qualify
    · rw [Link.raise_record]
      exact ⟨localV, peerV, rfl, legLmi, rfl⟩
    · rw [Link.raise_sending]
    · rw [Link.raise_record, if_neg nofun]
  | fail =>
    obtain ⟨x, hx⟩ : ∃ x : Link, x = (({ lk with record := { lk.record with finalV := some .fail } } : Link).raise e
      .qualityFail leg e.expected ({ lk with record := { lk.record with finalV := some .fail } } : Link).neighbourTag
      e.uptime).verdictEvent e .fail leg := ⟨_, rfl⟩
    have record : x.record = { lk.record with finalV := some .fail, lastReason := .disc .qualityFail } := by rw [hx]; rfl
    have sending : x.sending = lk.sending := by rw [hx]; rfl
    have event : OrdMsg.event ⟨.verdict .fail leg, e.uptime, e.reading⟩ ∈ x.toOrder := by
      rw [hx]
      exact List.mem_append_right _ (List.mem_singleton.2 rfl)
    rw [← hx]
    have up : x.record.state ≠ .up := by rw [record]; exact qualify ▸ nofun
    have held : x.record.state ≠ .held := by rw [record]; exact qualify ▸ nofun
    have failed := x.retryable_failed e (.disc .qualityFail)
    obtain ⟨kLocal, kPeer, kFinal, kLeg, kLmis⟩ := Link.retryable_qualified e (lk := x) (.disc .qualityFail) up held
    obtain ⟨reason, state, -⟩ := Link.retryable_ends e (lk := x) (.disc .qualityFail) up held
    rw [record] at kLocal kPeer kFinal kLeg kLmis state
    refine ⟨kLocal.trans localV, kPeer.trans peerV, kFinal.trans (congrArg some is.symm), kLeg.trans legLmi, kLmis, ?_,
      failed.departs (by rw [record]; exact qualify), failed.sending.trans sending, fun h => ?_, fun h => ?_,
      fun _ => ⟨reason, failed.gate, state, failed.tx⟩⟩
    · rw [is]
      exact failed.toOrder.subset event
    · exact absurd (is.symm.trans h) nofun
    · exact absurd (is.symm.trans h) nofun

/-! ## QUAL_RESULT and the end of the local run (R122, R123) -/

theorem qualResultReceived_takes {s : State} {l : LinkId} {sender : Tag} {v : Verdict} {n : Nat} {rest : List SeqEvent}
    (queue : (s.link l).inbox = .page ⟨sender, .qualResult v n⟩ :: rest) :
    ∃ t, exec (.qualResultReceived l) s = .next t ∧ OnlyLink l s t ∧
      t.link l = ({ s.link l with inbox := rest } : Link).qualResultArrives (s.env l) sender v := by
  refine takeEvent_step (f := fun e lk => lk.qualResultArrives e sender v) queue ?_
  change execQualResultReceived l s = _
  unfold execQualResultReceived
  rw [queue]

theorem runResult_takes {s : State} {l : LinkId} {lmis : List Nat} {leg : Nat} {v : Verdict} {rest : List SeqEvent}
    (queue : (s.link l).inbox = .runResult lmis leg v :: rest) :
    ∃ t, exec (.runResult l) s = .next t ∧ OnlyLink l s t ∧
      t.link l = ({ s.link l with inbox := rest } : Link).runEnds (s.env l) lmis leg v := by
  refine takeEvent_step (f := fun e lk => lk.runEnds e lmis leg v) queue ?_
  change execRunResult l s = _
  unfold execRunResult
  rw [queue]

/-- QUAL_RESULT in QUALIFY, the first of its kind. -/
theorem Link.qualResultArrives_first {e : Env} {lk : Link} {t : Tag} {v : Verdict} (from_ : lk.neighbourTag = some t)
    (qualify : lk.record.state = .qualify) (none_ : lk.record.peerV = none) : lk.qualResultArrives e t v =
      if lk.stage.run = .ended then
        ({ lk with
          stage := { lk.stage with requalAnswered := true }, record := { lk.record with peerV := some v },
          timers := { lk.timers with peerResult := none } } : Link).finalVerdict e
      else { lk with
        stage := { lk.stage with requalAnswered := true }, record := { lk.record with peerV := some v } } := by
  unfold Link.qualResultArrives
  rw [if_pos (Link.fromNeighbour_iff.2 from_), qualify]
  dsimp only
  rw [none_, if_neg (by exact Bool.false_ne_true)]

theorem Link.qualResultArrives_up {e : Env} {lk : Link} {t : Tag} {v own : Verdict} (from_ : lk.neighbourTag = some t)
    (up : lk.record.state = .up) (localV : lk.record.localV = some own) :
    lk.qualResultArrives e t v = lk.queuePage (.qualResult own (lk.record.legLmi.getD 0)) := by
  unfold Link.qualResultArrives
  rw [if_pos (Link.fromNeighbour_iff.2 from_), up]
  dsimp only
  rw [localV]

/-- The local run has ended, with its LMIs and verdict. -/
def Link.ranTo (lk : Link) (lmis : List Nat) (leg : Nat) (v : Verdict) : Link :=
  { lk with
    record := { lk.record with laneLmis := lmis.map some, legLmi := some leg, localV := some v },
    stage := { lk.stage with run := .ended } }

theorem Link.runEnds_last {e : Env} {lk : Link} {v peer : Verdict} (qualify : lk.record.state = .qualify)
    (running : lk.stage.run = .running) (there : lk.record.peerV = some peer) (lmis : List Nat) (leg : Nat) :
    lk.runEnds e lmis leg v = ((lk.ranTo lmis leg v).queueAtBoundary e (.qualResult v leg)).finalVerdict e := by
  unfold Link.runEnds
  exact (if_pos ⟨qualify, running⟩).trans (if_pos (by exact there ▸ rfl))

theorem Link.runEnds_first {e : Env} {lk : Link} {v : Verdict} (qualify : lk.record.state = .qualify)
    (running : lk.stage.run = .running) (none_ : lk.record.peerV = none) (lmis : List Nat) (leg : Nat) :
    lk.runEnds e lmis leg v = { lk.ranTo lmis leg v with
      timers := { lk.timers with peerResult := some (msec 500) } }.queuePage (.qualResult v leg) := by
  unfold Link.runEnds
  exact (if_pos ⟨qualify, running⟩).trans (if_neg (by exact none_ ▸ Bool.false_ne_true))

/-- The two ways to the final verdict, with what each leaves in transmission. -/
theorem verdict_decides {l : LinkId} {s : State} {rest : List SeqEvent} {own peer : Verdict} {lmis : List Nat} {leg : Nat}
    {c : Instr} (qualify : (s.link l).record.state = .qualify)
    (h : (∃ n sender, c = .qualResultReceived l ∧ (s.link l).inbox = .page ⟨sender, .qualResult peer n⟩ :: rest ∧
        (s.link l).neighbourTag = some sender ∧ (s.link l).stage.run = .ended ∧ (s.link l).record.peerV = none ∧
        (s.link l).record.localV = some own ∧ (s.link l).record.legLmi = some leg ∧
        (s.link l).record.laneLmis = lmis.map some) ∨
      (c = .runResult l ∧ (s.link l).inbox = .runResult lmis leg own :: rest ∧ (s.link l).stage.run = .running ∧
        (s.link l).record.peerV = some peer)) :
    ∃ t lk, exec c s = .next t ∧ OnlyLink l s t ∧ Decided (s.env l) own peer leg lk (t.link l) ∧
      lk.record.laneLmis = lmis.map some ∧ lk.record.retries = (s.link l).record.retries ∧ lk.toLog = (s.link l).toLog ∧
      (c = .runResult l → (s.link l).laneIdle = true → (s.link l).heldBy = none → (s.env l).ownTag.named = true →
        lk.sending = some ⟨.item (.qualResult own leg), pageBytes (s.env l).ownTag (.qualResult own leg), true⟩) ∧
      (c = .runResult l → (s.link l).sending.isSome = true → lk.sending = (s.link l).sending) := by
  rcases h with ⟨n, sender, rfl, queue, from_, ended, none_, localV, legLmi, laneLmis⟩ | ⟨rfl, queue, running, there⟩
  · obtain ⟨t, run, only, eq⟩ := qualResultReceived_takes queue
    have decides := (eq.trans (Link.qualResultArrives_first (by exact from_) (by exact qualify) (by exact none_))).trans
      (if_pos ended)
    obtain ⟨x, hx⟩ : ∃ x : Link, x = { s.link l with
      inbox := rest, timers := { (s.link l).timers with peerResult := none },
      stage := { (s.link l).stage with requalAnswered := true },
      record := { (s.link l).record with peerV := some peer } } := ⟨_, rfl⟩
    have xrecord : x.record = { (s.link l).record with peerV := some peer } := by rw [hx]
    have xlog : x.toLog = (s.link l).toLog := by rw [hx]
    replace decides : t.link l = x.finalVerdict (s.env l) := by rw [hx]; exact decides
    have decided := Link.finalVerdict_decided (s.env l) (own := own) (peer := peer) (leg := leg) (lk := x)
      (by rw [xrecord]; exact qualify) (by rw [xrecord]; exact localV) (by rw [xrecord]) (by rw [xrecord]; exact legLmi)
    rw [← decides] at decided
    refine ⟨t, x, run, only, decided, ?_, ?_, xlog, nofun, nofun⟩
    · rw [xrecord]
      exact laneLmis
    · rw [xrecord]
  · obtain ⟨t, run, only, eq⟩ := runResult_takes queue
    have decides := eq.trans (Link.runEnds_last (by exact qualify) (by exact running) (by exact there) lmis leg)
    obtain ⟨x, hx⟩ : ∃ x : Link, x = ({ s.link l with inbox := rest } : Link).ranTo lmis leg own := ⟨_, rfl⟩
    have xrecord : x.record = { (s.link l).record with
        laneLmis := lmis.map some, legLmi := some leg, localV := some own } := by rw [hx]; rfl
    have xlog : x.toLog = (s.link l).toLog := by rw [hx]; rfl
    have xsending : x.sending = (s.link l).sending := by rw [hx]; rfl
    have xidle : x.laneIdle = (s.link l).laneIdle := by rw [hx]; rfl
    have xheld : x.heldBy = (s.link l).heldBy := by rw [hx]; rfl
    rw [← hx] at decides
    have record := (x.queueAtBoundary_record (s.env l) (.qualResult own leg)).trans xrecord
    have decided := Link.finalVerdict_decided (s.env l) (own := own) (peer := peer) (leg := leg)
      (lk := x.queueAtBoundary (s.env l) (.qualResult own leg)) (by rw [record]; exact qualify) (by rw [record])
      (by rw [record]; exact there) (by rw [record])
    rw [← decides] at decided
    refine ⟨t, _, run, only, decided, ?_, ?_, ?_, fun _ idle free named => ?_, fun _ busy => ?_⟩
    · rw [record]
    · rw [record]
    · rw [Link.queueAtBoundary_toLog, xlog]
    · rw [x.queueAtBoundary_idle (s.env l) _ (xidle ▸ idle) (xheld ▸ free) named]
      unfold Link.beginPage
      dsimp only
      rw [xrecord]
      dsimp only
      rw [qualify]
      rfl
    · have notIdle : x.laneIdle = false := by
        unfold Link.laneIdle
        rw [xsending, Option.isNone_eq_false_iff.2 busy]
        rfl
      rw [x.queueAtBoundary_busy (s.env l) _ notIdle, Link.queuePage_sending, xsending]

/-! ## QUAL_READY (R118, R119, R123) -/

/-- QUAL_READY where it starts no run is a step of its link. -/
theorem qualReadyReceived_takes {s : State} {l : LinkId} {sender : Tag} {seed : Word} {rest : List SeqEvent} {new : Link}
    (queue : (s.link l).inbox = .page ⟨sender, .qualReady seed⟩ :: rest)
    (arrives : ({ s.link l with inbox := rest } : Link).qualReadyArrives sender seed = new) (undue : new.runDue = false) :
    ∃ t, exec (.qualReadyReceived l) s = .next t ∧ OnlyLink l s t ∧ t.link l = new := by
  have link : ((s.dropEvent l).onLink l fun _ lk => lk.qualReadyArrives sender seed).link l = new :=
    (s.link_takeEvent l _ queue).trans arrives
  refine ⟨_, ?_, s.takeEvent_only l fun _ lk => lk.qualReadyArrives sender seed, link⟩
  change execQualReadyReceived l s = _
  unfold execQualReadyReceived
  rw [queue]
  exact congrArg Host.Outcome.next (State.tryRunStart_undue (link ▸ undue))

/-- A QUAL_READY of the neighbour has been received. -/
def Link.readied (lk : Link) (seed : Word) : Link :=
  { lk with stage := { lk.stage with requalAnswered := true, qualReadyRecv := true, peerSeed := some seed } }

theorem Link.qualReadyArrives_kept {lk : Link} {t : Tag} (from_ : lk.neighbourTag = some t)
    (qualify : lk.record.state = .qualify) (run : lk.stage.run ≠ .ended) (seed : Word) :
    lk.qualReadyArrives t seed = lk.readied seed := by
  unfold Link.qualReadyArrives
  rw [if_pos ⟨Link.fromNeighbour_iff.2 from_, qualify⟩]
  dsimp only
  split
  · rfl
  · rfl
  · next ended => exact absurd ended run

theorem Link.qualReadyArrives_answered {lk : Link} {t : Tag} (from_ : lk.neighbourTag = some t)
    (qualify : lk.record.state = .qualify) (run : lk.stage.run = .ended) {own : Word} (seeded : lk.ownSeed = some own)
    (seed : Word) : lk.qualReadyArrives t seed = (lk.readied seed).queuePage (.qualReady own) := by
  unfold Link.qualReadyArrives
  rw [if_pos ⟨Link.fromNeighbour_iff.2 from_, qualify⟩]
  dsimp only
  split
  · next going => exact absurd (going.symm.trans run) nofun
  · next going => exact absurd (going.symm.trans run) nofun
  · split
    · next it => exact Option.some.inj (it.symm.trans seeded) ▸ rfl
    · next unseeded => exact absurd (unseeded.symm.trans seeded) nofun

theorem Link.runDue_begun {lk : Link} (h : lk.stage.run ≠ .notStarted) : lk.runDue = false :=
  decide_eq_false fun x => h x.2.2.2.2

theorem requalReceived_takes {s : State} {l : LinkId} {sender : Tag} {rest : List SeqEvent}
    (queue : (s.link l).inbox = .page ⟨sender, .requal⟩ :: rest) :
    ∃ t, exec (.requalReceived l) s = .next t ∧ OnlyLink l s t ∧
      t.link l = ({ s.link l with inbox := rest } : Link).requalArrives (s.env l) sender := by
  refine takeEvent_step (f := fun e lk => lk.requalArrives e sender) queue ?_
  change execRequalReceived l s = _
  unfold execRequalReceived
  rw [queue]

/-- Settles O51: the two ways to the final verdict, and each page of QUALIFY and UP before or after it. -/
theorem verdictsDecideTheLink : Obligations.VerdictsDecideTheLink := by
  refine ⟨fun l s rest own peer lmis leg c qualify h => ?_, fun l s sender rest from_ =>
    ⟨fun seed queue qualify ungranted run => ?_, fun seed queue qualify run => ?_,
      fun seed own queue qualify run seeded room => ?_, fun v n queue qualify none_ run => ?_,
      fun v n own queue up localV room => ?_, fun lmis leg v queue qualify run none_ room => ?_, fun queue up => ?_⟩⟩
  · obtain ⟨t, lk, run, only, decided, laneLmis, retries, log, begins, keeps⟩ := verdict_decides qualify h
    refine ⟨t, run, only, decided.localV, decided.peerV, decided.finalV, decided.legLmi, decided.laneLmis.trans laneLmis,
      decided.event, decided.departs, fun ends idle free named => decided.sending.trans (begins ends idle free named),
      fun ends busy fail => ?_, fun pass => ?_, decided.marginal, fun fail => ?_⟩
    · obtain ⟨-, -, -, tx⟩ := decided.fail fail
      exact ⟨decided.sending.trans (keeps ends busy), tx⟩
    · obtain ⟨state, gate, zero, since, same⟩ := decided.pass pass
      exact ⟨state, gate, zero, since, same.trans log⟩
    · obtain ⟨reason, gate, state, -⟩ := decided.fail fail
      rw [retries] at state
      exact ⟨reason, gate, state⟩
  · exact qualReadyReceived_takes queue
      (Link.qualReadyArrives_kept (by exact from_) (by exact qualify) (by exact run ▸ nofun) seed)
      (Link.runDue_ungranted (by exact ungranted))
  · exact qualReadyReceived_takes queue
      (Link.qualReadyArrives_kept (by exact from_) (by exact qualify) (by exact run ▸ nofun) seed)
      (Link.runDue_begun (by exact run ▸ nofun))
  · refine qualReadyReceived_takes queue ((Link.qualReadyArrives_answered (by exact from_) (by exact qualify)
      (by exact run) (by exact seeded) seed).trans (Link.queuePage_short _ _ (by exact room) (.inr ⟨nofun, nofun⟩))) ?_
    exact Link.runDue_begun (by exact run ▸ nofun)
  · obtain ⟨t, exec_, only, eq⟩ := qualResultReceived_takes queue
    exact ⟨t, exec_, only, (eq.trans (Link.qualResultArrives_first (by exact from_) (by exact qualify)
      (by exact none_))).trans (if_neg run)⟩
  · obtain ⟨t, exec_, only, eq⟩ := qualResultReceived_takes queue
    exact ⟨t, exec_, only, (eq.trans (Link.qualResultArrives_up (by exact from_) (by exact up) (by exact localV))).trans
      (Link.queuePage_short _ _ room (.inr ⟨nofun, nofun⟩))⟩
  · obtain ⟨t, exec_, only, eq⟩ := runResult_takes queue
    exact ⟨t, exec_, only, (eq.trans (Link.runEnds_first (by exact qualify) (by exact run) (by exact none_) lmis leg)).trans
      (Link.queuePage_short _ _ (by exact room) (.inr ⟨nofun, nofun⟩))⟩
  · obtain ⟨t, exec_, only, eq⟩ := requalReceived_takes queue
    have moved := eq.trans (if_pos ⟨Link.fromNeighbour_iff.2 from_, up⟩)
    obtain ⟨-, flap, -, -⟩ := (s.link l).record.move_counts (s.env l).uptime .qualify
    refine ⟨t, exec_, only, ?_⟩
    rw [moved, Link.move_record, Link.move_gate, Link.move_qualify_asks _ (by exact up ▸ nofun)]
    exact ⟨rfl, up, rfl, (LinkRecord.move_unqualified _ _ (.inr rfl)).2.1, flap.trans (if_pos up),
      LinkRecord.move_lastReason _ _ _, rfl⟩

/-! ## The end of a conversation (R68, R73, R81, R85) -/

theorem byeReceived_takes {s : State} {l : LinkId} {sender : Tag} {r : ByeReason} {rest : List SeqEvent}
    (queue : (s.link l).inbox = .page ⟨sender, .bye r⟩ :: rest) :
    ∃ t, exec (.byeReceived l) s = .next t ∧ OnlyLink l s t ∧
      t.link l = ({ s.link l with inbox := rest } : Link).byeArrives (s.env l) sender r := by
  refine takeEvent_step (f := fun e lk => lk.byeArrives e sender r) queue ?_
  change execByeReceived l s = _
  unfold execByeReceived
  rw [queue]

theorem keepaliveReceived_takes {s : State} {l : LinkId} {sender : Tag} {rest : List SeqEvent}
    (queue : (s.link l).inbox = .page ⟨sender, .keepalive⟩ :: rest) :
    ∃ t, exec (.keepaliveReceived l) s = .next t ∧ OnlyLink l s t ∧
      t.link l = ({ s.link l with inbox := rest } : Link).keepaliveArrives (s.env l) sender := by
  refine takeEvent_step (f := fun e lk => lk.keepaliveArrives e sender) queue ?_
  change execKeepaliveReceived l s = _
  unfold execKeepaliveReceived
  rw [queue]

theorem pageErrorReport_takes {s : State} {l : LinkId} {rest : List SeqEvent}
    (queue : (s.link l).inbox = .pageError :: rest) :
    ∃ t, exec (.pageErrorReport l) s = .next t ∧ OnlyLink l s t ∧
      t.link l = ({ s.link l with inbox := rest } : Link).pageErrorArrives (s.env l) := by
  refine takeEvent_step (f := fun e lk => lk.pageErrorArrives e) queue ?_
  change execPageErrorReport l s = _
  unfold execPageErrorReport
  rw [queue]

theorem Link.byeKnown_of {lk : Link} {t : Tag}
    (h : lk.neighbourTag = some t ∨ (lk.neighbourTag = none ∧ lk.pilotTag = some t)) : lk.byeKnown t = true := by
  unfold Link.byeKnown
  rcases h with there | ⟨none_, pilot⟩
  · rw [there]
    exact decide_eq_true rfl
  · rw [none_]
    exact decide_eq_true pilot

theorem Link.byeKnown_other {lk : Link} {t x : Tag} (there : lk.neighbourTag = some x) (other : x ≠ t) :
    lk.byeKnown t = false := by
  unfold Link.byeKnown
  rw [there]
  exact decide_eq_false other

/-- A BYE that counts, by its reason. -/
theorem Link.byeArrives_ends (e : Env) {lk : Link} {t : Tag} (r : ByeReason) (talks : lk.record.state.conversing = true)
    (known : lk.byeKnown t = true) :
    (lk.byeArrives e t r).record.prev = lk.record.state ∧
    (r = .admin → (lk.byeArrives e t r).record.state = .listen ∧ (lk.byeArrives e t r).record.lastReason = .peerAdmin) ∧
    (r = .plan → (lk.byeArrives e t r).record.state = .listen ∧ (lk.byeArrives e t r).record.lastReason = .peerPlan) ∧
    (r = .refused → (lk.byeArrives e t r).record.state = .held ∧
      (lk.byeArrives e t r).record.lastReason = .disc .peerRefused ∧
      (lk.byeArrives e t r).toLog = lk.toLog ++ [⟨.peerRefused, BitVec.ofNat 32 lk.record.state.code, e.expected, some t,
        lk.record.farExpect, e.uptime⟩]) := by
  rw [lk.byeArrives_known e t r talks known]
  cases r with
  | admin =>
    dsimp only
    rw [Link.move_record, LinkRecord.move_lastReason]
    exact ⟨rfl, fun _ => ⟨rfl, rfl⟩, nofun, nofun⟩
  | plan =>
    dsimp only
    rw [Link.move_record, LinkRecord.move_lastReason]
    exact ⟨rfl, nofun, fun _ => ⟨rfl, rfl⟩, nofun⟩
  | refused =>
    dsimp only
    rw [Link.move_record, LinkRecord.move_lastReason, Link.move_toLog, Link.raise_toLog, Link.raise_record, if_neg nofun]
    exact ⟨rfl, nofun, nofun, fun _ => ⟨rfl, rfl, rfl⟩⟩

/-- Settles O52: a BYE, a KEEPALIVE and a page error by the link's state and neighbour. -/
theorem conversationsEnd : Obligations.ConversationsEnd := by
  intro l s sender rest
  refine ⟨fun r queue => ?_, fun queue => ?_, fun queue => ?_⟩
  · obtain ⟨t, run, only, eq⟩ := byeReceived_takes queue
    refine ⟨t, run, only, fun talks known => ?_, fun still => ?_⟩
    · rw [eq]
      exact Link.byeArrives_ends (s.env l) r (by exact talks) (Link.byeKnown_of (by exact known))
    · refine eq.trans (Link.byeArrives_elsewhere _ _ _ _ fun ⟨talks, known⟩ => still.elim (fun no => ?_) fun x => ?_)
      · exact absurd (no.symm.trans talks) Bool.false_ne_true
      · obtain ⟨n, there, other⟩ := x
        exact absurd ((Link.byeKnown_other (by exact there) other).symm.trans known) Bool.false_ne_true
  · obtain ⟨t, run, only, eq⟩ := keepaliveReceived_takes queue
    refine ⟨t, run, only, fun still => ?_, fun up other => ?_⟩
    · refine eq.trans (if_neg fun ⟨up, other⟩ => still.elim (fun no => no up) fun from_ => ?_)
      exact absurd ((Link.fromNeighbour_iff.2 from_).symm.trans other) Bool.false_ne_true.symm
    · have changed := eq.trans (if_pos ⟨up, Bool.eq_false_iff.2 fun x => other (Link.fromNeighbour_iff.1 x)⟩)
      rw [changed, Link.move_record, Link.move_timers, Link.move_toLog, Link.raise_record, Link.raise_toLog, if_neg nofun]
      exact ⟨LinkRecord.move_lost (r := { (s.link l).record with lastReason := .disc .neighbourChanged }) up _, rfl, rfl⟩
  · obtain ⟨t, run, only, eq⟩ := pageErrorReport_takes queue
    refine ⟨t, run, only, fun no => eq.trans (if_neg no), fun pairs few => ?_, fun pairs many => ?_⟩
    · exact (eq.trans (if_pos pairs)).trans (if_neg (Nat.not_le.2 few))
    · have noisy := (eq.trans (if_pos pairs)).trans (if_pos many)
      obtain ⟨reason, state, -⟩ := Link.retryable_ends (s.env l) (lk := { s.link l with
        inbox := rest, stage := { (s.link l).stage with tagged := (s.link l).stage.tagged + 1 } }) .noisySideband
        (by exact pairs ▸ nofun) (by exact pairs ▸ nofun)
      rw [noisy]
      exact ⟨reason, state⟩

end Sys2Proof.Machine
end


section
/-! PROOFS. The echo samples and the length check of VERIFY (O53). -/
namespace Sys2Proof.Machine

-- One declaration at a time: the threads of a parallel elaboration exceed the memory of the check.
set_option Elab.async false

/-! ## The measured length does not depend on the order of the samples (R108) -/

/-- The measured length of three X values that may be absent. -/
def lengthOf (a b c : Option Nat) : Option Nat := measuredLength ([a, b, c].filterMap id)

theorem median_swap_first (a b c : Nat) : median a b c = median b a c := by
  unfold median
  omega

theorem median_swap_last (a b c : Nat) : median a b c = median a c b := by
  unfold median
  omega

theorem lengthOf_swap_first (a b c : Option Nat) : lengthOf a b c = lengthOf b a c := by
  rcases a with _ | a
  · rcases b with _ | b <;> rfl
  · rcases b with _ | b
    · rfl
    · rcases c with _ | c
      · exact congrArg some (Nat.min_comm a b)
      · exact congrArg some (median_swap_first a b c)

theorem lengthOf_swap_last (a b c : Option Nat) : lengthOf a b c = lengthOf a c b := by
  rcases b with _ | b
  · rcases c with _ | c <;> rfl
  · rcases c with _ | c
    · rfl
    · rcases a with _ | a
      · exact congrArg some (Nat.min_comm b c)
      · exact congrArg some (median_swap_last a b c)

theorem three_samples (v : Vector Sample 3) : v.toList = [v[0], v[1], v[2]] := by
  refine List.ext_getElem v.length_toList fun i h _ => ?_
  rw [Vector.length_toList] at h
  match i, h with
  | 0, _ => rfl
  | 1, _ => rfl
  | 2, _ => rfl

theorem three_indices : ∀ i j k : Fin 3, i ≠ j → i ≠ k → j ≠ k →
    (i = 0 ∧ j = 1 ∧ k = 2) ∨ (i = 0 ∧ j = 2 ∧ k = 1) ∨ (i = 1 ∧ j = 0 ∧ k = 2) ∨ (i = 1 ∧ j = 2 ∧ k = 0) ∨
    (i = 2 ∧ j = 0 ∧ k = 1) ∨ (i = 2 ∧ j = 1 ∧ k = 0) := by
  decide

theorem measuredLength_samples (v : Vector Sample 3) {i j k : Fin 3} (ij : i ≠ j) (ik : i ≠ k) (jk : j ≠ k) :
    measuredLength (v.toList.filterMap (·.x?)) = lengthOf v[i].x? v[j].x? v[k].x? := by
  have inOrder : measuredLength (v.toList.filterMap (·.x?)) = lengthOf v[0].x? v[1].x? v[2].x? := by
    rw [three_samples]
    unfold lengthOf
    exact congrArg measuredLength (List.filterMap_map (f := Sample.x?) (g := id) (l := [v[0], v[1], v[2]])).symm
  rw [inOrder]
  rcases three_indices i j k ij ik jk with ⟨rfl, rfl, rfl⟩ | ⟨rfl, rfl, rfl⟩ | ⟨rfl, rfl, rfl⟩ | ⟨rfl, rfl, rfl⟩ |
    ⟨rfl, rfl, rfl⟩ | ⟨rfl, rfl, rfl⟩
  · rfl
  · exact lengthOf_swap_last ..
  · exact lengthOf_swap_first ..
  · exact (lengthOf_swap_first ..).trans (lengthOf_swap_last ..)
  · exact (lengthOf_swap_last ..).trans (lengthOf_swap_first ..)
  · exact ((lengthOf_swap_last ..).trans (lengthOf_swap_first ..)).trans (lengthOf_swap_last ..)

/-! ## A sample closes (R105, R106, R108) -/

/-- An open sample of a running measurement has taken the closed state `x`. -/
structure SampleClosed (n : Fin 3) (x : Sample) (old new : Link) : Prop where
  here : new.echo.samples[n] = x
  others : ∀ k : Fin 3, k ≠ n → new.echo.samples[k] = old.echo.samples[k]
  record : new.record = old.record
  replies : new.echo.replies = old.echo.replies
  goesOn : (∃ k : Fin 3, k ≠ n ∧ old.echo.samples[k].isOpen = true) → new.inbox = old.inbox ∧ new.echo.running = true
  ends : (∀ k : Fin 3, k ≠ n → old.echo.samples[k].isOpen = false) → LengthReported old new

theorem all_closed_iff (v : Vector Sample 3) :
    v.toList.all (fun x => !x.isOpen) = true ↔ ∀ k : Fin 3, v[k].isOpen = false := by
  rw [three_samples]
  constructor
  · intro all k
    have closed := List.all_eq_true.1 all v[k] (three_samples v ▸ Vector.mem_toList_iff.2 (Vector.getElem_mem k.isLt))
    exact Bool.not_eq_true' _ ▸ closed
  · intro closed
    simp [show v[0].isOpen = false from closed 0, show v[1].isOpen = false from closed 1,
      show v[2].isOpen = false from closed 2]

theorem Link.echoSettle_goesOn {lk : Link} {k : Fin 3} (waits : lk.echo.samples[k].isOpen = true) :
    lk.echoSettle = lk := by
  refine if_neg fun h => ?_
  exact absurd waits (by rw [(all_closed_iff _).1 h.2 k]; exact Bool.false_ne_true)

theorem Link.echoSettle_ends {lk : Link} (running : lk.echo.running = true)
    (closed : ∀ k : Fin 3, lk.echo.samples[k].isOpen = false) : lk.echoSettle = { lk with
      echo := { lk.echo with running := false, timer := none },
      inbox := lk.inbox ++ [.lengthResult (measuredLength (lk.echo.samples.toList.filterMap (·.x?)))] } :=
  if_pos ⟨running, (all_closed_iff _).2 closed⟩

theorem lengthReported_of {old new : Link} (stops : new.echo.running = false)
    (inbox : new.inbox = old.inbox ++ [.lengthResult (measuredLength (new.echo.samples.toList.filterMap (·.x?)))]) :
    LengthReported old new := by
  refine ⟨stops, fun i j k ij ik jk => ?_⟩
  rw [measuredLength_samples _ ij ik jk] at inbox
  refine ⟨fun a b c ha hb hc => ?_, fun a b ha hb hc => ?_, fun a ha hb hc => ?_, fun ha hb hc => ?_⟩
  all_goals rw [inbox, ha, hb, hc]; rfl

theorem Link.sample_closes {lk : Link} (n : Fin 3) {x : Sample} (running : lk.echo.running = true)
    (closed : x.isOpen = false) : SampleClosed n x lk (lk.setSample n x).echoSettle := by
  obtain ⟨y, hy⟩ : ∃ y : Link, y = lk.setSample n x := ⟨_, rfl⟩
  have here : y.echo.samples[n] = x := by rw [hy]; exact Vector.getElem_set_self _
  have others : ∀ k : Fin 3, k ≠ n → y.echo.samples[k] = lk.echo.samples[k] := fun k hk => by
    rw [hy]
    exact Vector.getElem_set_ne n.isLt k.isLt fun h => hk (Fin.ext h.symm)
  have record : y.record = lk.record := by rw [hy]; rfl
  have replies : y.echo.replies = lk.echo.replies := by rw [hy]; rfl
  have inbox : y.inbox = lk.inbox := by rw [hy]; rfl
  have runs : y.echo.running = true := by rw [hy]; exact running
  rw [← hy]
  by_cases waits : ∃ k : Fin 3, k ≠ n ∧ lk.echo.samples[k].isOpen = true
  · obtain ⟨k, hk, isOpen⟩ := waits
    rw [Link.echoSettle_goesOn (k := k) (by rw [others k hk]; exact isOpen)]
    exact ⟨here, others, record, replies, fun _ => ⟨inbox, runs⟩,
      fun all => absurd isOpen (by rw [all k hk]; exact Bool.false_ne_true)⟩
  · have all : ∀ k : Fin 3, y.echo.samples[k].isOpen = false := fun k => by
      by_cases hk : k = n
      · rw [hk, here, closed]
      · rw [others k hk]
        exact Bool.eq_false_iff.2 fun isOpen => waits ⟨k, hk, isOpen⟩
    rw [Link.echoSettle_ends runs all]
    exact ⟨here, others, record, replies, fun h => absurd h waits,
      fun _ => lengthReported_of rfl (congrArg (· ++ _) inbox)⟩

/-! ## Replies and expiries (R106) -/

theorem Link.echoMatch_discarded {lk : Link} {r : EchoReply}
    (h : lk.echo.running = false ∨ ∀ sent left, lk.echo.samples[r.seq] ≠ .outstanding sent left) : lk.echoMatch r = lk := by
  unfold Link.echoMatch
  split
  · next running out =>
      exact h.elim (fun x => absurd (running.symm.trans x) nofun) fun x => absurd out (x _ _)
  · rfl

theorem Link.echoMatch_closes {lk : Link} {r : EchoReply} {sent left : Nat} (running : lk.echo.running = true)
    (out : lk.echo.samples[r.seq] = .outstanding sent left) :
    SampleClosed r.seq (if r.stamp - sent ≤ 65535 then
      .answered (r.stamp - sent) r.hold (min (r.stamp - sent - r.hold - 40) 4095) else .lost) lk (lk.echoMatch r) := by
  unfold Link.echoMatch
  rw [running, out]
  dsimp only
  by_cases inTime : r.stamp - sent ≤ 65535
  · rw [if_pos inTime, if_pos inTime]
    exact Link.sample_closes r.seq running rfl
  · rw [if_neg inTime, if_neg inTime]
    exact Link.sample_closes r.seq running rfl

theorem Link.echoExpire_none {lk : Link} {n : Fin 3}
    (h : lk.echo.running = false ∨ ∀ sent left, lk.echo.samples[n] ≠ .outstanding sent left) : lk.echoExpire n = lk := by
  unfold Link.echoExpire
  split
  · next running out =>
      exact h.elim (fun x => absurd (running.symm.trans x) nofun) fun x => absurd out (x _ _)
  · rfl

theorem Link.echoExpire_closes {lk : Link} {n : Fin 3} {sent left : Nat} (running : lk.echo.running = true)
    (out : lk.echo.samples[n] = .outstanding sent left) : SampleClosed n .lost lk (lk.echoExpire n) := by
  unfold Link.echoExpire
  rw [running, out]
  exact Link.sample_closes n running rfl

theorem Link.echoDue_idle {lk : Link} (h : lk.echo.running = false ∨ lk.echo.timer = none) : lk.echoDue = lk := by
  have idle : ∀ left, lk.echo.running = true → lk.echo.timer ≠ some left := fun left running timed => by
    rcases h with stopped | untimed
    · exact absurd (running.symm.trans stopped) nofun
    · exact absurd (timed.symm.trans untimed) nofun
  unfold Link.echoDue
  split
  · next running timed _ => exact absurd timed (idle _ running)
  · next running timed _ => exact absurd timed (idle _ running)
  · rfl

/-- The second and the third request fall due (R105). -/
theorem Link.echoDue_next {lk : Link} (running : lk.echo.running = true) (timer : lk.echo.timer ≠ none)
    (room : lk.tx.length < 4) :
    (lk.echo.next = 1 → lk.echoDue = { lk with
      echo := { lk.echo with next := 2, timer := some 1000000 }, tx := lk.tx ++ [.echoReq 1] }) ∧
    (lk.echo.next = 2 → lk.echoDue = { lk with
      echo := { lk.echo with next := 3, timer := none }, tx := lk.tx ++ [.echoReq 2] }) := by
  obtain ⟨left, timed⟩ := Option.ne_none_iff_exists'.1 timer
  unfold Link.echoDue
  constructor
  · intro next
    rw [running, timed, next]
    exact Link.queuePage_short _ _ (by exact room) (.inr ⟨nofun, nofun⟩)
  · intro next
    rw [running, timed, next]
    exact Link.queuePage_short _ _ (by exact room) (.inr ⟨nofun, nofun⟩)

/-! ## The length check (R69, R78, R109) -/

theorem lengthResult_takes {s : State} {l : LinkId} {m : Option Nat} {rest : List SeqEvent}
    (queue : (s.link l).inbox = .lengthResult m :: rest) : ∃ t, exec (.lengthResult l) s = .next t ∧ OnlyLink l s t ∧
      t.link l = ({ s.link l with inbox := rest } : Link).lengthArrives (s.env l) m := by
  refine takeEvent_step (f := fun e lk => lk.lengthArrives e m) queue ?_
  change execLengthResult l s = _
  unfold execLengthResult
  rw [queue]

/-- The sequencer in VERIFY before the length check: a measured length has been recorded. -/
theorem lengthResult_verify {s : State} {l : LinkId} {m : Option Nat} {rest : List SeqEvent}
    (queue : (s.link l).inbox = .lengthResult m :: rest) (verify : (s.link l).record.state = .verify) :
    ∃ (t : State) (y : Link), exec (.lengthResult l) s = .next t ∧ OnlyLink l s t ∧
      t.link l = y.lengthChecked (s.env l) ∧ y.record.state = .verify ∧ y.stage = (s.link l).stage ∧
      y.tx = (s.link l).tx ∧ y.toLog = (s.link l).toLog ∧ y.neighbourTag = (s.link l).neighbourTag ∧
      (∀ x, m = some x → y.record = { (s.link l).record with length := some x }) ∧
      (m = none → y.record = (s.link l).record) := by
  obtain ⟨t, run, only, eq⟩ := lengthResult_takes queue
  cases m with
  | none =>
    exact ⟨t, _, run, only, eq.trans (Link.lengthArrives_none _ _ verify), verify, rfl, rfl, rfl, rfl, nofun, fun _ => rfl⟩
  | some x =>
    exact ⟨t, _, run, only, eq.trans (Link.lengthArrives_some _ _ x verify), verify, rfl, rfl, rfl, rfl,
      fun _ h => Option.some.inj h ▸ rfl, nofun⟩

/-- The checks have passed and TRAIN_READY has not been sent yet: it is announced. -/
theorem Link.verifyPasses_waits (e : Env) {lk : Link} (unsent : lk.stage.trainReadySent = false)
    (room : lk.tx.length < 4) : lk.verifyPasses e =
      { lk with stage := { lk.stage with verifyPassed := true }, tx := lk.tx ++ [.trainReady] } := by
  refine (congrArg (Link.tryTrain e) (Link.queuePage_short _ .trainReady (by exact room) (.inr ⟨nofun, nofun⟩))).trans
    (if_neg fun h => ?_)
  exact absurd (h.2.2.1.symm.trans unsent) nofun

theorem Link.verifyPasses_length (e : Env) (lk : Link) : (lk.verifyPasses e).record.length = lk.record.length := by
  unfold Link.verifyPasses Link.tryTrain
  split
  · next h =>
      rw [(Link.move_train e h.1).1, Link.queuePage_record]
  · rw [Link.queuePage_record]

theorem Link.verifyPasses_toLog (e : Env) (lk : Link) : (lk.verifyPasses e).toLog = lk.toLog := by
  unfold Link.verifyPasses Link.tryTrain
  split
  · rw [Link.move_toLog, Link.queuePage_toLog]
  · rw [Link.queuePage_toLog]

/-- A measured length in VERIFY that the row refuses. -/
theorem Link.lengthChecked_refuses {e : Env} {lk : Link} {x want tol : Nat} (verify : lk.record.state = .verify)
    (measured : lk.record.length = some x) (expected : e.leg.length = some (want, tol))
    (differs : x + tol < want ∨ want + tol < x) (strict : e.leg.strict = .enforce) :
    (lk.lengthChecked e).record =
      { lk.record with state := .held, prev := .verify, lastReason := .disc .length } ∧
    (lk.lengthChecked e).bye = some ⟨.refused, 2⟩ ∧
    (lk.lengthChecked e).toLog = lk.toLog ++
      [⟨.length, BitVec.ofNat 32 x, e.expected, lk.neighbourTag, lk.record.farExpect, e.uptime⟩] := by
  have refused : lk.lengthChecked e = (lk.raiseLength e x).refuse e := by
    unfold Link.lengthChecked
    rw [Link.lengthFault_some.2 ⟨want, tol, expected, measured, differs⟩]
    exact if_pos strict
  obtain ⟨record, bye, toLog⟩ := Link.raise_refuse e (k := .length) nofun x e.expected lk.neighbourTag e.uptime
    (lk := lk) (by rw [verify]; rfl) (by rw [verify]; nofun)
  rw [verify] at record
  rw [refused]
  exact ⟨record, bye, toLog⟩

/-- A measured length in VERIFY that the row only reports. -/
theorem Link.lengthChecked_reports {e : Env} {lk : Link} {x want tol : Nat}
    (measured : lk.record.length = some x) (expected : e.leg.length = some (want, tol))
    (differs : x + tol < want ∨ want + tol < x) (strict : e.leg.strict ≠ .enforce) :
    lk.lengthChecked e = (lk.raiseLength e x).verifyPasses e := by
  unfold Link.lengthChecked
  rw [Link.lengthFault_some.2 ⟨want, tol, expected, measured, differs⟩]
  exact if_neg strict

theorem Link.lengthChecked_passes {e : Env} {lk : Link} (fits : lk.lengthFault e = none) :
    lk.lengthChecked e = lk.verifyPasses e := by
  unfold Link.lengthChecked
  rw [fits]

theorem Link.lengthFault_none {e : Env} {lk : Link} (h : lk.record.length = none ∨ e.leg.length = none ∨
    ∃ x want tol, lk.record.length = some x ∧ e.leg.length = some (want, tol) ∧ x ≤ want + tol ∧ want ≤ x + tol) :
    lk.lengthFault e = none := by
  cases fault : lk.lengthFault e with
  | none => rfl
  | some m =>
    obtain ⟨want, tol, expected, measured, differs⟩ := Link.lengthFault_some.1 fault
    rcases h with unmeasured | unexpected | ⟨x, want', tol', measured', expected', above, below⟩
    · exact absurd (measured.symm.trans unmeasured) nofun
    · exact absurd (expected.symm.trans unexpected) nofun
    · cases Option.some.inj (measured.symm.trans measured')
      cases Option.some.inj (expected.symm.trans expected')
      omega

theorem Link.lengthChecked_length {e : Env} {lk : Link} (verify : lk.record.state = .verify) :
    (lk.lengthChecked e).record.length = lk.record.length := by
  cases fault : lk.lengthFault e with
  | none => rw [Link.lengthChecked_passes fault, Link.verifyPasses_length]
  | some m =>
    obtain ⟨want, tol, expected, measured, differs⟩ := Link.lengthFault_some.1 fault
    by_cases strict : e.leg.strict = .enforce
    · rw [(Link.lengthChecked_refuses verify measured expected differs strict).1]
    · rw [Link.lengthChecked_reports measured expected differs strict, Link.verifyPasses_length]
      unfold Link.raiseLength
      rw [Link.raise_record, if_neg nofun]

/-- Settles O53. -/
theorem lengthIsMeasuredAndChecked : Obligations.LengthIsMeasuredAndChecked := by
  unfold Obligations.LengthIsMeasuredAndChecked
  refine ⟨fun l s => ⟨fun running timer room => ⟨fun next => ?_, fun next => ?_⟩, fun idle => ?_,
    fun n h stamp rest queue => ?_, fun n out => ?_, fun n sent left running out => ?_⟩, fun l s m rest queue => ?_⟩
  · obtain ⟨t, run, only, eq⟩ := onLink_step (c := .echoReqDue l) (s := s) (l := l) (f := fun _ lk => lk.echoDue) rfl
    exact ⟨t, run, only, eq.trans ((Link.echoDue_next running timer room).1 next)⟩
  · obtain ⟨t, run, only, eq⟩ := onLink_step (c := .echoReqDue l) (s := s) (l := l) (f := fun _ lk => lk.echoDue) rfl
    exact ⟨t, run, only, eq.trans ((Link.echoDue_next running timer room).2 next)⟩
  · obtain ⟨t, run, only, eq⟩ := onLink_step (c := .echoReqDue l) (s := s) (l := l) (f := fun _ lk => lk.echoDue) rfl
    exact ⟨t, run, only, eq.trans (Link.echoDue_idle idle)⟩
  · obtain ⟨t, run, only, eq⟩ := onLink_step (c := .echoReplyReceived l) (s := s) (l := l) rfl
    obtain ⟨x, hx⟩ : ∃ x : Link, x = { s.link l with echo := { (s.link l).echo with replies := rest } } := ⟨_, rfl⟩
    have taken : t.link l = x.echoMatch ⟨n, h, stamp⟩ := by
      rw [eq, queue, hx]
    have record : x.record = (s.link l).record := by rw [hx]
    have replies : x.echo.replies = rest := by rw [hx]
    have runs : x.echo.running = (s.link l).echo.running := by rw [hx]
    have samples : x.echo.samples = (s.link l).echo.samples := by rw [hx]
    have inbox : x.inbox = (s.link l).inbox := by rw [hx]
    by_cases judged : ∃ sent left, (s.link l).echo.running = true ∧ (s.link l).echo.samples[n] = .outstanding sent left
    · obtain ⟨sent, left, running, out⟩ := judged
      have closes := Link.echoMatch_closes (r := ⟨n, h, stamp⟩) (runs.trans running) (by rw [samples]; exact out)
      rw [← taken] at closes
      refine ⟨t, run, only, closes.replies.trans replies, closes.record.trans record, fun idle => ?_,
        fun sent' left' _ out' => ?_⟩
      · rcases idle with stopped | other
        · exact absurd (running.symm.trans stopped) nofun
        · exact absurd out (other _ _)
      · cases out.symm.trans out'
        refine ⟨closes.here, fun k hk => ?_, fun waits => ?_, fun closed => ?_⟩
        · rw [closes.others k hk, samples]
        · obtain ⟨same, still⟩ := closes.goesOn (by rw [samples]; exact waits)
          exact ⟨same.trans inbox, still⟩
        · obtain ⟨stops, reported⟩ := closes.ends (by rw [samples]; exact closed)
          rw [inbox] at reported
          exact ⟨stops, reported⟩
    · have idle : x.echo.running = false ∨ ∀ sent left, x.echo.samples[n] ≠ .outstanding sent left := by
        rw [runs, samples]
        by_cases running : (s.link l).echo.running = true
        · exact .inr fun sent left out => judged ⟨sent, left, running, out⟩
        · exact .inl (Bool.eq_false_iff.2 running)
      have same := taken.trans (Link.echoMatch_discarded (r := ⟨n, h, stamp⟩) idle)
      exact ⟨t, run, only, by rw [same, replies], by rw [same, record], fun _ => same.trans hx,
        fun sent left running out => absurd ⟨sent, left, running, out⟩ judged⟩
  · obtain ⟨t, run, only, eq⟩ := onLink_step (c := .echoReplyTimerExpiry l n) (s := s) (l := l) rfl
    exact ⟨t, run, only, eq.trans (Link.echoExpire_none out)⟩
  · obtain ⟨t, run, only, eq⟩ := onLink_step (c := .echoReplyTimerExpiry l n) (s := s) (l := l) rfl
    have closes := Link.echoExpire_closes running out
    rw [← show t.link l = (s.link l).echoExpire n from eq] at closes
    exact ⟨t, run, only, closes.here, closes.record, closes.others, closes.goesOn, closes.ends⟩
  · by_cases verify : (s.link l).record.state = .verify
    · obtain ⟨t, y, run, only, is, inVerify, stage, tx, log, tag, record, unmeasured⟩ := lengthResult_verify queue verify
      refine ⟨t, run, only, fun elsewhere => absurd verify elsewhere, fun _ => ⟨fun x hx => ?_,
        fun x want tol hx expected differs => ?_, fun h unsent room => ?_⟩⟩
      · rw [is, Link.lengthChecked_length inVerify, record x hx]
      · have length : y.record.length = some x := by rw [record x hx]
        by_cases strict : (s.legPlan l).strict = .enforce
        · obtain ⟨refused, bye, toLog⟩ := Link.lengthChecked_refuses (e := s.env l) inVerify length expected differs strict
          rw [← is] at refused bye toLog
          refine ⟨⟨_, toLog ▸ List.mem_append_right _ (List.mem_singleton.2 rfl), rfl, rfl⟩, fun _ => ⟨?_, bye, ?_⟩,
            fun report => absurd (strict.symm.trans report) nofun⟩
          · rw [refused]
          · rw [refused]
        · have reports := is.trans (Link.lengthChecked_reports (e := s.env l) length expected differs strict)
          have toLog := (y.raise_toLog (s.env l) .length x (s.env l).expected y.neighbourTag (s.env l).uptime)
          refine ⟨⟨⟨.length, BitVec.ofNat 32 x, (s.env l).expected, y.neighbourTag, y.record.farExpect, (s.env l).uptime⟩,
            ?_, rfl, rfl⟩, fun enforce => absurd enforce strict, fun _ unsent room => ?_⟩
          · rw [reports, Link.verifyPasses_toLog]
            exact toLog ▸ List.mem_append_right _ (List.mem_singleton.2 rfl)
          · obtain ⟨z, hz⟩ : ∃ z : Link, z = y.raiseLength (s.env l) x := ⟨_, rfl⟩
            have zstage : z.stage = y.stage := by rw [hz]; exact Link.raise_stage ..
            have ztx : z.tx = y.tx := by rw [hz]; exact Link.raise_tx ..
            have zrecord : z.record = { y.record with lastReason := .disc .length } := by
              rw [hz]
              exact (Link.raise_record ..).trans (if_neg nofun)
            have zlog : z.toLog = y.toLog ++ [⟨.length, BitVec.ofNat 32 x, (s.env l).expected, y.neighbourTag,
              y.record.farExpect, s.uptime⟩] := by rw [hz]; exact toLog
            rw [reports, ← hz, Link.verifyPasses_waits _ (by rw [zstage, stage]; exact unsent)
              (by rw [ztx, tx]; exact room)]
            refine ⟨?_, ?_, ?_, ?_⟩
            · exact zrecord.trans (by rw [record x hx])
            · exact congrArg (fun g : Stage => { g with verifyPassed := true }) (zstage.trans stage)
            · exact congrArg (· ++ [TxItem.trainReady]) (ztx.trans tx)
            · exact zlog.trans (by rw [record x hx, log, tag])
      · have fits : y.lengthFault (s.env l) = none := Link.lengthFault_none (by
          rcases h with ⟨hm, none_⟩ | none_ | ⟨x, want, tol, hx, expected, above, below⟩
          · exact .inl (by rw [unmeasured hm]; exact none_)
          · exact .inr (.inl none_)
          · exact .inr (.inr ⟨x, want, tol, by rw [record x hx], expected, above, below⟩))
        rw [is, Link.lengthChecked_passes fits, Link.verifyPasses_waits _ (by rw [stage]; exact unsent)
          (by rw [tx]; exact room)]
        exact ⟨congrArg (fun g : Stage => { g with verifyPassed := true }) stage, log,
          congrArg (· ++ [TxItem.trainReady]) tx, inVerify, unmeasured⟩
    · obtain ⟨t, run, only, eq⟩ := lengthResult_takes queue
      exact ⟨t, run, only, fun _ => eq.trans (Link.lengthArrives_elsewhere _ _ _ verify), fun x => absurd x verify⟩

end Sys2Proof.Machine
end


section
/-! PROOFS. The skew measurement and the end of TRAIN (O54). -/
namespace Sys2Proof.Machine

-- One declaration at a time: the threads of a parallel elaboration exceed the memory of the check.
set_option Elab.async false

/-! ## Markers (R101, R102) -/

/-- What a marker on a near lane does to a link. -/
def Link.markerAt (lk : Link) (near : Lane) (time : Nat) : Link :=
  if lk.record.state = .train then lk.markerSeen near time else lk

theorem markerDetected_seen {port : PortId} {lane near : Lane} {time : Nat} {s : State} {l : LinkId}
    (owns : nearLane (s.splitOf port) lane = (legOf l, near)) (own : portOf l = port) :
    ∃ t, exec (.markerDetected port lane time) s = .next t ∧ OnlyLink l s t ∧
      t.link l = (s.link l).markerAt near time := by
  refine onLink_step (f := fun _ lk => lk.markerAt near time) ?_
  change execMarkerDetected port lane time s = _
  unfold execMarkerDetected
  rw [owns]
  dsimp only
  rw [← own, linkOf_portOf]
  rfl

theorem Link.markerAt_gap {lk : Link} {last : Nat} (train : lk.record.state = .train) (gap : lk.skew = .gap last)
    (near : Lane) (time : Nat) : lk.markerAt near time = { lk with
      skew := if last + 2048 ≤ time then .collecting time ((Bank.fill 8 none).set near (some 0)) else .gap time } := by
  refine (if_pos train).trans ?_
  unfold Link.markerSeen
  rw [gap]

theorem Link.markerAt_collecting {lk : Link} {ref : Nat} {offsets : Vector (Option Nat) 8}
    (train : lk.record.state = .train) (collecting : lk.skew = .collecting ref offsets) (near : Lane) (time : Nat) :
    lk.markerAt near time = { lk with skew := .collecting ref (if offsets[near] = none ∧ time - ref < 1024 then
      offsets.set near (some (time - ref)) else offsets) } := by
  refine (if_pos train).trans ?_
  unfold Link.markerSeen
  rw [collecting]
  dsimp only
  by_cases first : offsets[near] = none ∧ time - ref < 1024
  · rw [if_pos first, if_pos first]
  · rw [if_neg first, if_neg first, ← collecting]

theorem Link.markerAt_idle {lk : Link} (h : lk.record.state ≠ .train ∨ lk.skew = .idle) (near : Lane) (time : Nat) :
    lk.markerAt near time = lk := by
  unfold Link.markerAt
  split
  · next train =>
    have idle := h.resolve_left (not_not_intro train)
    unfold Link.markerSeen
    rw [idle]
  · rfl

/-! ## The span and the delays (R103) -/

theorem foldl_max_spec (xs : List Nat) (m : Nat) :
    m ≤ xs.foldl max m ∧ (∀ a ∈ xs, a ≤ xs.foldl max m) ∧ (xs.foldl max m = m ∨ xs.foldl max m ∈ xs) := by
  induction xs generalizing m with
  | nil => exact ⟨Nat.le_refl m, nofun, .inl rfl⟩
  | cons x xs ih =>
    obtain ⟨above, bounds, reached⟩ := ih (max m x)
    refine ⟨(Nat.le_max_left m x).trans above, fun a ha => ?_, ?_⟩
    · rcases List.mem_cons.1 ha with rfl | ha
      · exact (Nat.le_max_right m a).trans above
      · exact bounds a ha
    · rcases reached with same | there
      · rcases Nat.le_total x m with le | le
        · exact .inl (same.trans (Nat.max_eq_left le))
        · exact .inr (List.mem_cons.2 (.inl (same.trans (Nat.max_eq_right le))))
      · exact .inr (List.mem_cons_of_mem x there)

/-- The offsets of the near lanes of a leg, in lane order. -/
def legOffsets (offsets : Vector (Option Nat) 8) (width : Nat) : List Nat :=
  (offsets.toList.take width).map fun o => o.getD 0

theorem legOffsets_at {offsets : Vector (Option Nat) 8} {width a : Nat} {i : Lane} (inLeg : i.val < width)
    (offset : offsets[i] = some a) : (legOffsets offsets width)[i.val]? = some a := by
  have at_ : offsets.toList[i.val]? = some (some a) := by
    rw [List.getElem?_eq_getElem (by rw [Vector.length_toList]; exact i.isLt)]
    exact congrArg some offset
  unfold legOffsets
  rw [List.getElem?_map, List.getElem?_take_of_lt inLeg, at_]
  rfl

theorem mem_legOffsets {offsets : Vector (Option Nat) 8} {width a : Nat}
    (complete : ∀ i : Lane, i.val < width → offsets[i] ≠ none) (h : a ∈ legOffsets offsets width) :
    ∃ i : Lane, i.val < width ∧ offsets[i] = some a := by
  obtain ⟨n, inLeg⟩ := List.mem_iff_getElem.1 h
  obtain ⟨short, is⟩ := inLeg
  have bound : n < width ∧ n < 8 := by
    unfold legOffsets at short
    rw [List.length_map, List.length_take, Vector.length_toList] at short
    exact ⟨by omega, by omega⟩
  obtain ⟨b, hb⟩ := Option.ne_none_iff_exists'.1 (complete ⟨n, bound.2⟩ bound.1)
  have at_ := legOffsets_at (i := ⟨n, bound.2⟩) bound.1 hb
  rw [List.getElem?_eq_getElem short, is] at at_
  exact ⟨⟨n, bound.2⟩, bound.1, hb.trans at_.symm⟩

theorem lowestWithout_some {offsets : Vector (Option Nat) 8} {width : Nat} {i : Lane} (inLeg : i.val < width)
    (missing : offsets[i] = none) (lowest : ∀ k : Lane, k < i → offsets[k] ≠ none) :
    lowestWithout offsets width = some i := by
  refine find?_allBelow.2 ⟨?_, fun k hk => ?_⟩
  · rw [missing, decide_eq_true inLeg]
    rfl
  · rw [Option.isNone_eq_false_iff.2 (Option.isSome_iff_ne_none.2 (lowest k hk)), Bool.and_false]

theorem lowestWithout_none {offsets : Vector (Option Nat) 8} {width : Nat}
    (complete : ∀ i : Lane, i.val < width → offsets[i] ≠ none) : lowestWithout offsets width = none := by
  refine List.find?_eq_none.2 fun i _ => ?_
  rw [Bool.and_eq_true, decide_eq_true_eq, Option.isNone_iff_eq_none]
  exact fun h => complete i h.1 h.2

/-! ## The end of the measurement (R102, R103) -/

theorem Link.skewEnds_missing {e : Env} {lk : Link} {ref : Nat} {offsets : Vector (Option Nat) 8} {i : Lane}
    (collecting : lk.skew = .collecting ref offsets) (missing : lowestWithout offsets e.width = some i) :
    lk.skewEnds e = { lk with skew := .idle, inbox := lk.inbox ++ [.skewResult (.missing i)] } := by
  unfold Link.skewEnds
  rw [collecting]
  dsimp only
  rw [missing]

theorem Link.skewEnds_excess {e : Env} {lk : Link} {ref : Nat} {offsets : Vector (Option Nat) 8}
    (collecting : lk.skew = .collecting ref offsets) (complete : lowestWithout offsets e.width = none)
    (excess : 255 < skewSpan (legOffsets offsets e.width)) :
    lk.skewEnds e = { lk with
      skew := .idle, inbox := lk.inbox ++ [.skewResult (.excess (skewSpan (legOffsets offsets e.width)))] } := by
  unfold Link.skewEnds
  rw [collecting]
  dsimp only
  rw [complete]
  exact if_neg (Nat.not_le.2 excess)

theorem Link.skewEnds_applied {e : Env} {lk : Link} {ref : Nat} {offsets : Vector (Option Nat) 8}
    (collecting : lk.skew = .collecting ref offsets) (complete : lowestWithout offsets e.width = none)
    (fits : skewSpan (legOffsets offsets e.width) ≤ 255) :
    lk.skewEnds e = { lk with
      skew := .idle, delays := some (deskewDelays (legOffsets offsets e.width)),
      inbox := lk.inbox ++ [.skewResult (.applied (skewSpan (legOffsets offsets e.width))
        (deskewDelays (legOffsets offsets e.width)))] } := by
  unfold Link.skewEnds
  rw [collecting]
  dsimp only
  rw [complete]
  exact if_pos fits

theorem Link.skewEnds_idle {e : Env} {lk : Link} {ref : Nat} {offsets : Vector (Option Nat) 8}
    (collecting : lk.skew = .collecting ref offsets) :
    (lk.skewEnds e).skew = .idle ∧ (lk.skewEnds e).record = lk.record := by
  cases lowest : lowestWithout offsets e.width with
  | some i =>
    rw [Link.skewEnds_missing collecting lowest]
    exact ⟨rfl, rfl⟩
  | none =>
    by_cases fits : skewSpan (legOffsets offsets e.width) ≤ 255
    · rw [Link.skewEnds_applied collecting lowest fits]
      exact ⟨rfl, rfl⟩
    · rw [Link.skewEnds_excess collecting lowest (Nat.not_le.1 fits)]
      exact ⟨rfl, rfl⟩

theorem skewMeasurementEnd_ends {s : State} {l : LinkId} (train : (s.link l).record.state = .train) :
    ∃ t, exec (.skewMeasurementEnd l) s = .next t ∧ OnlyLink l s t ∧ t.link l = (s.link l).skewEnds (s.env l) := by
  obtain ⟨t, run, only, eq⟩ := onLink_step (c := .skewMeasurementEnd l) (s := s) (l := l) rfl
  exact ⟨t, run, only, eq.trans (if_pos train)⟩

/-! ## The outcome at the sequencer (R70) -/

theorem skewResult_takes {s : State} {l : LinkId} {o : SkewOutcome} {rest : List SeqEvent}
    (queue : (s.link l).inbox = .skewResult o :: rest) : ∃ t, exec (.skewResult l) s = .next t ∧ OnlyLink l s t ∧
      t.link l = ({ s.link l with inbox := rest } : Link).skewArrives (s.env l) o := by
  refine takeEvent_step (f := fun e lk => lk.skewArrives e o) queue ?_
  change execSkewResult l s = _
  unfold execSkewResult
  rw [queue]

theorem Link.skewArrives_applied {e : Env} {lk : Link} (train : lk.record.state = .train)
    (unheard : lk.stage.trainedRecv = false) (room : lk.tx.length < 4) (span : Nat) (ds : List Nat) :
    lk.skewArrives e (.applied span ds) = { lk with
      tx := lk.tx ++ [.trained],
      record := { lk.record with skewSpan := some span, deskew := ds.map some } } := by
  refine (if_pos train).trans ((congrArg (Link.tryQualify e)
    (Link.queuePage_short _ .trained (by exact room) (.inr ⟨nofun, nofun⟩))).trans (if_neg fun h => ?_))
  exact absurd (h.2.2.symm.trans unheard) nofun

theorem Link.retryable_measured (e : Env) {lk : Link} (why : Reason) (up : lk.record.state ≠ .up)
    (held : lk.record.state ≠ .held) : (lk.retryable e why).record.skewSpan = lk.record.skewSpan ∧
      (lk.retryable e why).record.deskew = lk.record.deskew := by
  by_cases below : lk.record.retries < e.leg.retryLimit
  · rw [(lk.retryable_below e why up held below).1]
    exact ⟨rfl, rfl⟩
  · rw [(lk.retryable_limit e why up held (Nat.le_of_not_lt below)).1]
    exact ⟨rfl, rfl⟩

theorem Link.skewArrives_excess {e : Env} {lk : Link} (train : lk.record.state = .train) (span : Nat) :
    (lk.skewArrives e (.excess span)).record.skewSpan = some span ∧
    (lk.skewArrives e (.excess span)).record.lastReason = .disc .skewExcess ∧
    (lk.skewArrives e (.excess span)).record.deskew = lk.record.deskew ∧
    (lk.skewArrives e (.excess span)).record.state =
      (if lk.record.retries < e.leg.retryLimit then .backoff else .held) := by
  obtain ⟨x, hx⟩ : ∃ x : Link, x = { lk with record := { lk.record with skewSpan := some span } } := ⟨_, rfl⟩
  have record : x.record = { lk.record with skewSpan := some span } := by rw [hx]
  have is : lk.skewArrives e (.excess span) =
      (x.raise e .skewExcess span e.expected x.neighbourTag e.uptime).retryable e (.disc .skewExcess) := by
    rw [hx]
    exact if_pos train
  have raised : (x.raise e .skewExcess span e.expected x.neighbourTag e.uptime).record =
      { x.record with lastReason := .disc .skewExcess } := by
    rw [Link.raise_record, if_neg (by decide)]
  have up : x.record.state ≠ .up := by rw [record]; exact fun h => absurd (train.symm.trans h) nofun
  have held : x.record.state ≠ .held := by rw [record]; exact fun h => absurd (train.symm.trans h) nofun
  obtain ⟨reason, ends, -⟩ := Link.raise_retryable e (lk := x) (k := .skewExcess) (by decide) span e.expected x.neighbourTag
    e.uptime (.disc .skewExcess) up held
  obtain ⟨spans, deskew⟩ := Link.retryable_measured e (lk := x.raise e .skewExcess span e.expected x.neighbourTag e.uptime)
    (.disc .skewExcess) (by rw [raised]; exact up) (by rw [raised]; exact held)
  rw [← is, raised, record] at spans deskew
  rw [← is, record] at ends
  rw [← is] at reason
  exact ⟨spans, reason, deskew, ends⟩

theorem Link.skewArrives_missing {e : Env} {lk : Link} (train : lk.record.state = .train) (i : Lane) :
    (lk.skewArrives e (.missing i)).record.lastReason = .disc .laneMissing ∧
    (lk.skewArrives e (.missing i)).record.state =
      (if lk.record.retries < e.leg.retryLimit then .backoff else .held) := by
  have is : lk.skewArrives e (.missing i) =
      (lk.raise e .laneMissing i.val e.expected lk.neighbourTag e.uptime).retryable e (.disc .laneMissing) := if_pos train
  obtain ⟨reason, ends, -⟩ := Link.raise_retryable e (lk := lk) (k := .laneMissing) (by decide) i.val e.expected
    lk.neighbourTag e.uptime (.disc .laneMissing) (fun h => absurd (train.symm.trans h) nofun)
    (fun h => absurd (train.symm.trans h) nofun)
  rw [is]
  exact ⟨reason, ends⟩

/-- Settles O54. -/
theorem skewIsMeasuredAndTakenOut : Obligations.SkewIsMeasuredAndTakenOut := by
  unfold Obligations.SkewIsMeasuredAndTakenOut
  refine ⟨fun l s => ⟨?_, fun port lane near time owns own => ?_⟩,
    fun l s train => ⟨fun ref offsets collecting => ?_, fun o rest queue => ?_⟩⟩
  · exact onLink_step (c := .markerTx l) (s := s) (l := l) (f := fun _ lk =>
      if lk.record.state = .train then { lk with wire := lk.wire ++ [.markers] } else lk) rfl
  · obtain ⟨t, run, only, eq⟩ := markerDetected_seen (time := time) owns own
    exact ⟨t, run, only, fun train =>
      ⟨fun last gap => eq.trans (Link.markerAt_gap train gap near time),
       fun ref offsets collecting => eq.trans (Link.markerAt_collecting train collecting near time)⟩,
      fun idle => eq.trans (Link.markerAt_idle idle near time)⟩
  · obtain ⟨t, run, only, eq⟩ := skewMeasurementEnd_ends train
    obtain ⟨idle, record⟩ := Link.skewEnds_idle (e := s.env l) collecting
    rw [← eq] at idle record
    refine ⟨t, run, only, idle, record, fun i inLeg missing lowest => ?_, fun complete => ?_⟩
    · rw [eq, Link.skewEnds_missing collecting (lowestWithout_some inLeg missing lowest)]
    · have none_ := lowestWithout_none complete
      obtain ⟨-, bounds, reached⟩ := foldl_max_spec (legOffsets offsets (s.env l).width) 0
      refine ⟨skewSpan (legOffsets offsets (s.env l).width), fun i inLeg a offset => ?_, ?_, fun excess => ?_,
        fun fits => ?_⟩
      · exact bounds a (List.mem_of_getElem? (legOffsets_at inLeg offset))
      · exact reached.imp_right (mem_legOffsets complete)
      · rw [eq, Link.skewEnds_excess collecting none_ excess]
        exact ⟨rfl, rfl⟩
      · rw [eq, Link.skewEnds_applied collecting none_ fits]
        refine ⟨_, rfl, rfl, fun i inLeg a offset => ?_⟩
        unfold deskewDelays
        rw [List.getElem?_map, legOffsets_at inLeg offset]
        rfl
  · obtain ⟨t, run, only, eq⟩ := skewResult_takes queue
    refine ⟨t, run, only, ?_⟩
    cases o with
    | applied span ds =>
      exact fun unheard room => eq.trans (Link.skewArrives_applied (by exact train) (by exact unheard) (by exact room) span ds)
    | excess span =>
      rw [eq]
      exact Link.skewArrives_excess (by exact train) span
    | missing i =>
      rw [eq]
      exact Link.skewArrives_missing (by exact train) i

end Sys2Proof.Machine
end


section
/-! PROOFS. TAKE_DOWN, BRING_UP, REQUALIFY and STATE_QUERY (O55). -/
namespace Sys2Proof.Machine

-- One declaration at a time: the threads of a parallel elaboration exceed the memory of the check.
set_option Elab.async false

/-! ## The commands as acts on their link -/

theorem takeDownEvent_takes {s : State} {l : LinkId} {ref : Word} {rest : List SeqEvent}
    (queue : (s.link l).inbox = .takeDown ref :: rest) : ∃ t, exec (.takeDownEvent l) s = .next t ∧ OnlyLink l s t ∧
      t.link l = (({ s.link l with inbox := rest } : Link).takeDown (s.env l)).answer ref
        (.acted (decide ((s.link l).record.state ≠ .off))) := by
  refine takeEvent_step (f := fun e lk => (lk.takeDown e).answer ref (.acted (decide (lk.record.state ≠ .off)))) queue ?_
  change execTakeDownEvent l s = _
  unfold execTakeDownEvent
  rw [queue]

theorem bringUpEvent_takes {s : State} {l : LinkId} {ref : Word} {rest : List SeqEvent}
    (queue : (s.link l).inbox = .bringUp ref :: rest) : ∃ t, exec (.bringUpEvent l) s = .next t ∧ OnlyLink l s t ∧
      t.link l = (({ s.link l with inbox := rest } : Link).bringUp (s.env l)).answer ref
        (.acted ((s.env l).usable && (s.env l).present && !(s.link l).record.selfCheck)) := by
  refine takeEvent_step (f := fun e lk =>
    (lk.bringUp e).answer ref (.acted (e.usable && e.present && !lk.record.selfCheck))) queue ?_
  change execBringUpEvent l s = _
  unfold execBringUpEvent
  rw [queue]

/-- The entry to QUALIFY that a REQUALIFY makes. -/
def Entry.requalify (ref : Word) (prio : Nat) : Entry :=
  { stage := { byRequalify := true }, prio := prio, requal := some ref }

/-- What REQUALIFY does to a link. -/
def Link.requalified (e : Env) (lk : Link) (ref : Word) (prio : Nat) : Link :=
  if e.present ∧ lk.record.state = .up then
    (lk.move e .qualify (.requalify ref prio)).answer ref .started
  else lk.answer ref (.state (lk.stateShown e))

theorem requalifyEvent_takes {s : State} {l : LinkId} {ref : Word} {prio : Nat} {rest : List SeqEvent}
    (queue : (s.link l).inbox = .requalify ref prio :: rest) :
    ∃ t, exec (.requalifyEvent l) s = .next t ∧ OnlyLink l s t ∧
      t.link l = ({ s.link l with inbox := rest } : Link).requalified (s.env l) ref prio := by
  refine takeEvent_step (f := fun e lk => lk.requalified e ref prio) queue ?_
  change execRequalifyEvent l s = _
  unfold execRequalifyEvent
  rw [queue]
  rfl

theorem stateQuery_takes {s : State} {l : LinkId} {ref : Word} {rest : List SeqEvent}
    (queue : (s.link l).inbox = .stateQuery ref :: rest) : ∃ t, exec (.stateQuery l) s = .next t ∧ OnlyLink l s t ∧
      t.link l = { s.link l with
        inbox := rest, toOrder := (s.link l).toOrder ++ [.answer ref (.state ((s.link l).stateShown (s.env l)))] } := by
  refine takeEvent_step (f := fun e lk => lk.answer ref (.state (lk.stateShown e))) queue ?_
  change execStateQuery l s = _
  unfold execStateQuery
  rw [queue]

/-! ## TAKE_DOWN (R87) and BRING_UP (R88) -/

theorem Link.answer_last (lk : Link) (ref : Word) (a : Answer) :
    (lk.answer ref a).toOrder.getLast? = some (.answer ref a) := List.getLast?_concat ..

theorem Link.stop_gate (e : Env) (lk : Link) (r : ByeReason) :
    (lk.stop e r).gate = if lk.record.state = .off then lk.gate else false := by
  by_cases h : lk.record.state = .off
  · rw [Link.stop_off h, if_pos h]
  · rw [Link.stop_moves h, Link.move_gate, if_neg h]
    rfl

/-- A link that BRING_UP has been taken by: admin-down and the retries are cleared. -/
def Link.allowed (lk : Link) : Link := { lk with record := { lk.record with adminDown := false, retries := 0 } }

theorem Link.allowed_mayRun (e : Env) (lk : Link) : lk.allowed.mayRun e = true ↔
    e.usable = true ∧ e.present = true ∧ lk.record.selfCheck = false := by
  unfold Link.mayRun Link.allowed
  simp only [Bool.and_eq_true, Bool.not_eq_true', and_true, and_assoc]

theorem Link.bringUp_listens {e : Env} {lk : Link} (quiet : lk.record.state ∈ [LinkState.off, .held])
    (may : lk.allowed.mayRun e = true) : lk.bringUp e = lk.allowed.move e .listen := by
  unfold Link.bringUp
  dsimp only
  split
  · exact if_pos may
  · exact if_pos may
  all_goals
    next other =>
      rw [other] at quiet
      exact absurd quiet (by decide)

theorem Link.bringUp_stays {e : Env} {lk : Link}
    (h : ¬(lk.record.state ∈ [LinkState.off, .held] ∧ lk.allowed.mayRun e = true)) : lk.bringUp e = lk.allowed := by
  unfold Link.bringUp
  dsimp only
  split
  · next off => exact if_neg fun may => h ⟨by rw [off]; exact List.mem_cons_self, may⟩
  · next held => exact if_neg fun may => h ⟨by rw [held]; exact List.mem_cons_of_mem _ List.mem_cons_self, may⟩
  all_goals rfl

theorem Link.bringUp_record (e : Env) (lk : Link) :
    (lk.bringUp e).record.adminDown = false ∧ (lk.bringUp e).record.retries = 0 ∧
    (lk.bringUp e).record.lastReason = lk.record.lastReason ∧
    (lk.bringUp e).record.state = if lk.record.state ∈ [LinkState.off, .held] ∧ lk.allowed.mayRun e = true then .listen
      else lk.record.state := by
  by_cases h : lk.record.state ∈ [LinkState.off, .held] ∧ lk.allowed.mayRun e = true
  · rw [Link.bringUp_listens h.1 h.2, if_pos h, Link.move_record, LinkRecord.move_adminDown, LinkRecord.move_lastReason,
      LinkRecord.move_retries _ _ .listen nofun]
    exact ⟨rfl, rfl, rfl, rfl⟩
  · rw [Link.bringUp_stays h, if_neg h]
    exact ⟨rfl, rfl, rfl, rfl⟩

/-! ## REQUALIFY (R86, R170) -/

theorem Link.announcePages_requal (e : Env) {lk : Link} (qualify : lk.record.state = .qualify)
    (stage : lk.stage = { byRequalify := true }) (fresh : lk.record.localV = none) :
    lk.announcePages e = [.requal] := by
  have ready : lk.qualReadyPages = [] := by
    unfold Link.qualReadyPages
    rw [stage]
    split
    · rfl
    · rfl
  have result : lk.qualResultPages = [] := by
    unfold Link.qualResultPages
    rw [fresh]
  unfold Link.announcePages
  rw [qualify, ready, result, stage]
  rfl

/-- The transition to QUALIFY that a REQUALIFY makes announces REQUAL. -/
theorem Link.move_requalify_tx (e : Env) {lk : Link} (empty : lk.tx = []) (prio : Nat)
    (ref : Word) :
    (lk.move e .qualify (.requalify ref prio)).tx = [.requal] := by
  unfold Link.move
  dsimp only
  generalize hm : Link.moveUnits e (Link.movePages _ .qualify) .qualify = m
  have tx : m.tx = [] := by
    rw [← hm]
    exact (lk.leaveQualify_tx).trans empty
  have record : m.record = lk.leaveQualify.record.move e.uptime .qualify := by rw [← hm]; rfl
  have stage : m.stage = { byRequalify := true } := by rw [← hm]; rfl
  have pages : m.announcePages e = [.requal] := Link.announcePages_requal e (by rw [record]; rfl) stage
    (by rw [record]; rfl)
  obtain ⟨x, hx⟩ : ∃ x, x = { m with timers := { m.timers with announce := some (msec 1) } }.directBeacons e := ⟨_, rfl⟩
  have rest := Link.directBeacons_rest e { m with timers := { m.timers with announce := some (msec 1) } }
  rw [← hx] at rest
  have xtx : x.tx = [] := (congrArg Link.tx rest :).trans tx
  change (m.announce e).tx = [.requal]
  unfold Link.announce
  rw [pages, ← hx]
  have short := x.queuePage_short .requal (by rw [xtx]; decide) (.inr ⟨nofun, nofun⟩)
  rw [xtx] at short
  exact congrArg Link.tx short

/-- Settles O55. -/
theorem sequencersObeyTheHost : Obligations.SequencersObeyTheHost := by
  unfold Obligations.SequencersObeyTheHost
  refine fun l s ref rest => ⟨fun queue => ?_, fun queue => ?_, fun prio queue => ⟨fun up present => ?_, fun h => ?_⟩,
    fun queue => stateQuery_takes queue⟩
  · obtain ⟨t, run, only, eq⟩ := takeDownEvent_takes queue
    obtain ⟨x, hx⟩ : ∃ x : Link, x = { s.link l with inbox := rest } := ⟨_, rfl⟩
    have record : x.record = (s.link l).record := by rw [hx]
    have gate : x.gate = (s.link l).gate := by rw [hx]
    rw [← hx] at eq
    refine ⟨t, run, only, ?_⟩
    rw [eq]
    refine ⟨Link.stop_state (s.env l) x .admin, rfl, rfl, ?_, fun talks => ?_, Link.answer_last ..⟩
    · exact (Link.stop_gate (s.env l) x .admin).trans (by rw [record, gate])
    · exact Link.stop_bye (s.env l) (by rw [record]; exact talks) .admin
  · obtain ⟨t, run, only, eq⟩ := bringUpEvent_takes queue
    obtain ⟨adminDown, retries, reason, state⟩ :=
      Link.bringUp_record (s.env l) ({ s.link l with inbox := rest } : Link)
    refine ⟨t, run, only, ?_⟩
    rw [eq]
    refine ⟨adminDown, retries, reason, state.trans ?_, Link.answer_last ..⟩
    simp only [Link.allowed_mayRun]
    rfl
  · obtain ⟨t, run, only, eq⟩ := requalifyEvent_takes queue
    obtain ⟨x, hx⟩ : ∃ x : Link, x = { s.link l with inbox := rest } := ⟨_, rfl⟩
    have record : x.record = (s.link l).record := by rw [hx]
    have toEngine : x.toEngine = (s.link l).toEngine := by rw [hx]
    have tx : x.tx = (s.link l).tx := by rw [hx]
    rw [← hx] at eq
    have xup : x.record.state = .up := by rw [record]; exact up
    have moves : t.link l = (x.move (s.env l) .qualify (.requalify ref prio)).answer ref .started :=
      eq.trans (if_pos ⟨present, xup⟩)
    refine ⟨t, run, only, ?_⟩
    rw [moves]
    refine ⟨?_, ?_, Link.move_requalRef (s.env l) x (.requalify ref prio),
      Link.move_gate (s.env l) x .qualify (.requalify ref prio), ?_,
      Link.move_stage (s.env l) x .qualify (.requalify ref prio), ?_, fun empty => ?_,
      Link.answer_last ..⟩
    · exact congrArg LinkRecord.state (Link.move_record ..)
    · exact (congrArg LinkRecord.prev (Link.move_record ..)).trans xup
    · exact (congrArg LinkRecord.lastReason (Link.move_record ..)).trans
        ((LinkRecord.move_lastReason ..).trans (congrArg LinkRecord.lastReason record))
    · exact (Link.move_qualify_asks (s.env l) (by rw [xup]; nofun) (.requalify ref prio)).trans (congrArg (· ++ _) toEngine)
    · exact Link.move_requalify_tx (s.env l) (by rw [tx]; exact empty) prio ref
  · obtain ⟨t, run, only, eq⟩ := requalifyEvent_takes queue
    refine ⟨t, run, only, eq.trans (if_neg fun both => ?_)⟩
    rcases h with other | absent
    · exact other both.2
    · exact absurd (both.1.symm.trans absent) nofun

end Sys2Proof.Machine
end


section
/-! PROOFS. The Lane Test Engines: requests, departures, grants and self-checks (O56). -/
namespace Sys2Proof.Machine

-- One declaration at a time: the threads of a parallel elaboration exceed the memory of the check.
set_option Elab.async false

/-! ## The waiting list and the messages to an engine (R112, R113) -/

/-- Where an entry joins: behind every entry of equal or higher priority (R112). -/
theorem waitInsert_splits (w : WaitEntry) (vs : List WaitEntry) : ∃ a b, vs = a ++ b ∧ waitInsert w vs = a ++ w :: b ∧
    (∀ x ∈ a, w.prio ≤ x.prio) ∧ ∀ x ∈ b.head?, x.prio < w.prio := by
  induction vs with
  | nil => exact ⟨[], [], rfl, rfl, nofun, nofun⟩
  | cons v vs ih =>
    by_cases lower : v.prio < w.prio
    · refine ⟨[], v :: vs, rfl, if_pos lower, nofun, fun x hx => ?_⟩
      cases Option.mem_some_iff.1 hx
      exact lower
    · obtain ⟨a, b, split, joined, above, below⟩ := ih
      refine ⟨v :: a, b, by rw [split]; rfl, (if_neg lower).trans (by rw [joined]; rfl), fun x hx => ?_, below⟩
      rcases List.mem_cons.1 hx with rfl | hx
      · exact Nat.le_of_not_lt lower
      · exact above x hx

theorem State.dropEngMsg_eq {s : State} {l : LinkId} {m : EngMsg} {rest : List EngMsg}
    (queue : (s.link l).toEngine = m :: rest) : s.dropEngMsg l = s.putLink l { s.link l with toEngine := rest } := by
  unfold State.dropEngMsg
  rw [queue, List.drop_one, List.tail_cons]

theorem State.dropEvent_eq {s : State} {l : LinkId} {ev : SeqEvent} {rest : List SeqEvent}
    (queue : (s.link l).inbox = ev :: rest) : s.dropEvent l = s.putLink l { s.link l with inbox := rest } := by
  unfold State.dropEvent
  rw [queue, List.drop_one, List.tail_cons]

/-- Another message list of one link changes no record. -/
theorem State.record_putLink {s : State} {l : LinkId} {lk : Link} (h : lk.record = (s.link l).record) (k : LinkId) :
    ((s.putLink l lk).link k).record = (s.link k).record := by
  by_cases hk : k = l
  · rw [hk, State.link_putLink, h]
  · rw [State.link_putLink_other _ _ hk]

/-! ## A port takes a step -/

theorem linkOf_ne (p : PortId) : linkOf p 1 ≠ linkOf p 0 := fun h => by
  have val := Fin.val_eq_of_eq h
  change p.val * 2 + 1 = p.val * 2 + 0 at val
  omega

theorem State.link_onPort (s : State) (p : PortId) (f : Env → Link → Link) (leg : Fin 2) :
    (s.onPort p f).link (linkOf p leg) = f (s.env (linkOf p leg)) (s.link (linkOf p leg)) := by
  have first := s.onLink_only (linkOf p 0) f
  have second := (s.onLink (linkOf p 0) f).onLink_only (linkOf p 1) f
  unfold State.onPort
  rcases leg_cases leg with rfl | rfl
  · rw [second.others _ (linkOf_ne p).symm, State.link_onLink]
  · rw [State.link_onLink, first.env, first.others _ (linkOf_ne p)]

theorem State.onPort_others (s : State) {p : PortId} (f : Env → Link → Link) {l : LinkId} (h : portOf l ≠ p) :
    (s.onPort p f).link l = s.link l := by
  have other : ∀ leg, l ≠ linkOf p leg := fun leg x => h (x ▸ portOf_linkOf p leg)
  unfold State.onPort
  rw [(State.onLink_only _ _ f).others l (other 1), (s.onLink_only _ f).others l (other 0)]

theorem State.onPort_rest (s : State) (p : PortId) (f : Env → Link → Link) :
    { s.onPort p f with links := s.links, dirty := s.dirty, writeQueue := s.writeQueue, statusDue := s.statusDue,
                        spacing := s.spacing } = s :=
  (congrArg (fun x : State => { x with
    links := s.links, dirty := s.dirty, writeQueue := s.writeQueue, statusDue := s.statusDue, spacing := s.spacing }) ((s.onLink (linkOf p 0) f).onLink_only (linkOf p 1) f).rest :).trans
    (s.onLink_only (linkOf p 0) f).rest

/-- A port's self-check may run: each present link is in OFF or HELD (R130). -/
def State.mayCheck (s : State) (p : PortId) : Prop := ∀ leg : Fin 2, (s.env (linkOf p leg)).present = true →
  (s.link (linkOf p leg)).record.state = .off ∨ (s.link (linkOf p leg)).record.state = .held

theorem State.portQuiet_iff (s : State) (p : PortId) : s.portQuiet p = true ↔ s.mayCheck p := by
  unfold State.portQuiet
  rw [List.all_eq_true]
  simp only [decide_eq_true_eq]
  constructor
  · exact fun all leg present => all _ (State.mem_presentLinks.2 ⟨portOf_linkOf p leg, present⟩)
  · intro quiet l hl
    obtain ⟨own, present⟩ := State.mem_presentLinks.1 hl
    rcases eq_linkOf own.symm with rfl | rfl
    · exact quiet 0 present
    · exact quiet 1 present

theorem State.mayCheck_congr {s t : State} (record : ∀ l, (t.link l).record = (s.link l).record)
    (env : ∀ l, t.env l = s.env l) (p : PortId) : t.mayCheck p ↔ s.mayCheck p := by
  unfold State.mayCheck
  simp only [record, env]

theorem State.not_mayCheck {s : State} {p : PortId} (h : ∃ leg : Fin 2, (s.env (linkOf p leg)).present = true ∧
    (s.link (linkOf p leg)).record.state ≠ .off ∧ (s.link (linkOf p leg)).record.state ≠ .held) : ¬s.mayCheck p := by
  obtain ⟨leg, present, off, held⟩ := h
  exact fun may => (may leg present).elim off held

/-! ## Grants (R113, R115, R130) -/

/-- A link has become the owner of an engine, the grant sent to it. -/
structure Granted (e : EngineId) (l : LinkId) (waiting : List WaitEntry) (s t : State) : Prop where
  engine : t.engine e = { Engine.free waiting with phase := .granted, owner := some (.link l) }
  link : t.link l = { s.link l with inbox := (s.link l).inbox ++ [.grant] }
  links : ∀ k, k ≠ l → t.link k = s.link k
  engines : ∀ f, f ≠ e → t.engine f = s.engine f
  rest : { t with links := s.links, engines := s.engines } = s

theorem State.grantLink_granted (s : State) (e : EngineId) (l : LinkId) (waiting : List WaitEntry) :
    Granted e l waiting s (s.grantLink e l waiting) where
  engine := s.engine_putEngine e _
  link := State.link_send _ l .grant
  links _ h := State.link_send_other _ _ h
  engines _ h := s.engine_putEngine_other _ h
  rest := rfl

/-- A self-check has begun at an engine. -/
structure SelfBegun (e : EngineId) (c : SelfCheck) (waiting : List WaitEntry) (s t : State) : Prop where
  engine : t.engine e = Engine.running (.self c) waiting s.nextSeed (windowWords c.units)
  engines : ∀ f, f ≠ e → t.engine f = s.engine f
  port : ∀ leg : Fin 2, t.link (linkOf c.port leg) = (s.link (linkOf c.port leg)).selfCheckBegins
  links : ∀ l, portOf l ≠ c.port → t.link l = s.link l
  rest : { t with links := s.links, dirty := s.dirty, writeQueue := s.writeQueue, statusDue := s.statusDue,
                  spacing := s.spacing, engines := s.engines, seedsDrawn := s.seedsDrawn } = s

theorem State.beginSelfCheck_begun (s : State) (e : EngineId) (c : SelfCheck) (waiting : List WaitEntry) :
    SelfBegun e c waiting s (s.beginSelfCheck e c waiting) := by
  obtain ⟨x, hx⟩ : ∃ x : State, x =
      (s.putEngine e (Engine.running (.self c) waiting s.nextSeed (windowWords c.units))).seedDrawn := ⟨_, rfl⟩
  have is : s.beginSelfCheck e c waiting = x.onPort c.port fun _ lk => lk.selfCheckBegins := by rw [hx]; rfl
  have link : ∀ l, x.link l = s.link l := fun l => by rw [hx]; rfl
  have engine : ∀ f, (s.beginSelfCheck e c waiting).engine f = x.engine f := fun f => by
    unfold State.engine
    rw [is, State.onPort_engines]
  refine ⟨?_, fun f hf => ?_, fun leg => ?_, fun l hl => ?_, ?_⟩
  · rw [engine, hx]
    exact s.engine_putEngine e _
  · rw [engine, hx]
    exact s.engine_putEngine_other _ hf
  · rw [is, State.link_onPort, link]
  · rw [is, State.onPort_others _ _ hl, link]
  · have rest := x.onPort_rest c.port fun _ lk => lk.selfCheckBegins
    rw [← is] at rest
    have back : { x with
      links := s.links, dirty := s.dirty, writeQueue := s.writeQueue, statusDue := s.statusDue, spacing := s.spacing, engines := s.engines, seedsDrawn := s.seedsDrawn } = s := by rw [hx]; rfl
    exact (congrArg (fun y : State => { y with
      links := s.links, dirty := s.dirty, writeQueue := s.writeQueue, statusDue := s.statusDue, spacing := s.spacing,
      engines := s.engines, seedsDrawn := s.seedsDrawn }) rest :).trans back

theorem State.grantNext_runs {s : State} {c : SelfCheck} (quiet : s.mayCheck c.port) (e : EngineId) (p : Nat)
    (ws : List WaitEntry) : s.grantNext e (⟨.self c, p⟩ :: ws) = s.beginSelfCheck e c ws := by
  rw [State.grantNext]
  exact if_pos ((s.portQuiet_iff c.port).2 quiet)

theorem State.grantNext_refuses {s : State} {c : SelfCheck} (busy : ¬s.mayCheck c.port) (e : EngineId) (p : Nat)
    (ws : List WaitEntry) :
    s.grantNext e (⟨.self c, p⟩ :: ws) = (s.endOrder c.ref .notPermitted []).grantNext e ws := by
  rw [State.grantNext]
  exact if_neg fun h => busy ((s.portQuiet_iff c.port).1 h)

/-! ## Requests, departures and grants at their engine -/

theorem State.engineAsk_free {s : State} {e : EngineId} (free : (s.engine e).phase = .free)
    (alone : (s.engine e).waiting = []) (w : WaitEntry) : s.engineAsk e w = s.grantNext e [w] := by
  unfold State.engineAsk
  dsimp only
  rw [free, alone]
  rfl

theorem State.engineAsk_waits {s : State} {e : EngineId} (busy : (s.engine e).phase ≠ .free) (w : WaitEntry) :
    s.engineAsk e w = s.putEngine e { s.engine e with waiting := waitInsert w (s.engine e).waiting } := by
  unfold State.engineAsk
  dsimp only
  split
  · next free => exact absurd free busy
  · rfl
  · rfl

theorem engineRequest_asks {s : State} {l : LinkId} {prio : Nat} {rest : List EngMsg}
    (queue : (s.link l).toEngine = .request prio :: rest) : exec (.engineRequest l) s =
      .next ((s.putLink l { s.link l with toEngine := rest }).engineAsk (engineOfLink l) ⟨.link l, prio⟩) := by
  change execEngineRequest l s = _
  unfold execEngineRequest
  rw [← State.dropEngMsg_eq queue, queue]

theorem engineDeparture_departs {s : State} {l : LinkId} {rest : List EngMsg}
    (queue : (s.link l).toEngine = .departure :: rest) : exec (.engineDeparture l) s =
      .next ((s.putLink l { s.link l with toEngine := rest }).engineDeparts (engineOfLink l) l) := by
  change execEngineDeparture l s = _
  unfold execEngineDeparture
  rw [← State.dropEngMsg_eq queue, queue]

theorem State.engineDeparts_releases {s : State} {e : EngineId} {l : LinkId}
    (owns : (s.engine e).owner = some (.link l)) : s.engineDeparts e l =
      s.grantNext e ((s.engine e).waiting.filter fun w => !decide (w.who = .link l)) := if_pos owns

theorem State.engineDeparts_leaves {s : State} {e : EngineId} {l : LinkId}
    (not_ : (s.engine e).owner ≠ some (.link l)) : s.engineDeparts e l = s.putEngine e { s.engine e with
      waiting := (s.engine e).waiting.filter fun w => !decide (w.who = .link l) } := if_neg not_

theorem engineGrant_takes {s : State} {l : LinkId} {rest : List SeqEvent} (queue : (s.link l).inbox = .grant :: rest) :
    exec (.engineGrant l) s = .next ((s.dropEvent l).takeGrant l) := by
  change execEngineGrant l s = _
  unfold execEngineGrant
  rw [queue]

theorem seedValue_ne (w : Word) : seedValue w ≠ 0 := by
  unfold seedValue
  split
  · decide
  · next h => exact h

/-- A step of a link that keeps its record touches the link alone (R14, R193). -/
theorem State.onLink_quiet {s : State} {l : LinkId} {f : Env → Link → Link}
    (h : (f (s.env l) (s.link l)).record = (s.link l).record) :
    s.onLink l f = s.putLink l (f (s.env l) (s.link l)) := by
  unfold State.onLink
  dsimp only
  rw [if_pos h, h, if_pos rfl]

/-- A grant taken in QUALIFY before QUAL_READY was sent: a seed is drawn, and QUAL_READY is queued (R119). -/
theorem engineGrant_draws {s : State} {l : LinkId} {rest : List SeqEvent} (queue : (s.link l).inbox = .grant :: rest)
    (qualify : (s.link l).record.state = .qualify) (unsent : (s.link l).stage.qualReadySent = false)
    (room : (s.link l).tx.length < 4) : ∃ t seed, exec (.engineGrant l) s = .next t ∧ seed ≠ 0 ∧
      t.seedsDrawn = s.seedsDrawn + 1 ∧ OnlyLink l s { t with seedsDrawn := s.seedsDrawn } ∧
      t.link l = { s.link l with
        inbox := rest, stage := { (s.link l).stage with granted := true }, ownSeed := some seed,
        tx := (s.link l).tx ++ [.qualReady seed] } := by
  obtain ⟨d, hd⟩ : ∃ d, d = s.dropEvent l := ⟨_, rfl⟩
  have link : d.link l = { s.link l with inbox := rest } := by
    rw [hd, State.dropEvent_eq queue, State.link_putLink]
  obtain ⟨f, hf⟩ : ∃ f : Env → Link → Link, f = fun _ lk =>
      { lk with stage := { lk.stage with granted := true }, ownSeed := some d.nextSeed }.queuePage (.qualReady d.nextSeed) :=
    ⟨_, rfl⟩
  have new : (d.seedDrawn.onLink l f).link l = { s.link l with
      inbox := rest, stage := { (s.link l).stage with granted := true }, ownSeed := some d.nextSeed,
      tx := (s.link l).tx ++ [.qualReady d.nextSeed] } := by
    rw [State.link_onLink, show d.seedDrawn.link l = { s.link l with inbox := rest } from link, hf]
    exact Link.queuePage_short _ _ (by exact room) (.inr ⟨nofun, nofun⟩)
  have undue : ((d.seedDrawn.onLink l f).link l).runDue = false := by
    rw [new]
    exact decide_eq_false fun h => absurd (h.2.2.1.symm.trans unsent) nofun
  have is : d.takeGrant l = d.seedDrawn.onLink l f := by
    rw [← State.tryRunStart_undue undue, hf]
    exact if_pos (by rw [link]; exact qualify)
  have keeps : ∀ e lk, (f e lk).record = lk.record := fun e lk => by
    rw [hf]
    exact Link.queuePage_record ..
  have drawn := State.onLink_quiet (s := d.seedDrawn) (l := l) (keeps _ _)
  have undrawn : { d.seedDrawn.onLink l f with seedsDrawn := s.seedsDrawn } = d.onLink l f := by
    rw [drawn, State.onLink_quiet (s := d) (l := l) (keeps _ _), hd]
    rfl
  refine ⟨_, d.nextSeed, (engineGrant_takes queue).trans (by rw [← hd, is]), seedValue_ne _, by rw [drawn, hd]; rfl, ?_, new⟩
  rw [undrawn, hd]
  exact s.takeEvent_only l f

/-! ## Self-checks (R114, R130, R172) -/

/-- A self-check of the port owns the engine, or waits at it. -/
def Engine.checking (en : Engine) (p : PortId) : Prop :=
  ∃ d : SelfCheck, d.port = p ∧ (en.owner = some (.self d) ∨ ∃ q, ⟨.self d, q⟩ ∈ en.waiting)

theorem Owner.checks_iff (o : Owner) (p : PortId) : o.checks p = true ↔ ∃ d : SelfCheck, d.port = p ∧ o = .self d := by
  unfold Owner.checks
  cases o with
  | link l => exact ⟨nofun, nofun⟩
  | self c =>
    rw [decide_eq_true_eq]
    constructor
    · exact fun h => ⟨c, h, rfl⟩
    · rintro ⟨d, h, is⟩
      cases is
      exact h

theorem Engine.checking_iff (en : Engine) (p : PortId) : en.checking p ↔
    (en.owner.map (·.checks p)).getD false = true ∨ en.waiting.any (fun w => w.who.checks p) = true := by
  constructor
  · rintro ⟨d, own, owner | ⟨q, waits⟩⟩
    · exact .inl (by rw [owner]; exact (Owner.checks_iff _ p).2 ⟨d, own, rfl⟩)
    · exact .inr (List.any_eq_true.2 ⟨_, waits, (Owner.checks_iff _ p).2 ⟨d, own, rfl⟩⟩)
  · rintro (h | h)
    · cases owner : en.owner with
      | none =>
        rw [owner] at h
        exact absurd h Bool.false_ne_true
      | some o =>
        rw [owner] at h
        obtain ⟨d, own, is⟩ := (Owner.checks_iff o p).1 h
        exact ⟨d, own, .inl (by rw [owner, is])⟩
    · obtain ⟨⟨who, q⟩, waits, checks⟩ := List.any_eq_true.1 h
      obtain ⟨d, own, is⟩ := (Owner.checks_iff who p).1 checks
      exact ⟨d, own, .inr ⟨q, by rw [← is]; exact waits⟩⟩

theorem State.selfCheckAsk_refused {s : State} {c : SelfCheck} (h : (s.engine (engineOf c.port)).checking c.port) :
    s.selfCheckAsk c = s.endOrder c.ref .notPermitted [] := if_pos ((Engine.checking_iff _ _).1 h)

theorem State.selfCheckAsk_asks {s : State} {c : SelfCheck} (h : ¬(s.engine (engineOf c.port)).checking c.port) :
    s.selfCheckAsk c = s.engineAsk (engineOf c.port) ⟨.self c, c.prio⟩ :=
  if_neg fun x => h ((Engine.checking_iff _ _).2 x)

theorem selfCheckRequest_asks {s : State} {c : SelfCheck} {rest : List SelfCheck} (queue : s.selfRequests = c :: rest) :
    exec .selfCheckRequest s = .next ({ s with selfRequests := rest }.selfCheckAsk c) := by
  change execSelfCheckRequest s = _
  unfold execSelfCheckRequest
  rw [queue]

/-- Settles O56. -/
theorem enginesAreGrantedInTurn : Obligations.EnginesAreGrantedInTurn := by
  unfold Obligations.EnginesAreGrantedInTurn
  refine ⟨fun l s e own => ⟨fun prio rest queue => ?_, fun rest queue => ?_, fun rest queue => ⟨fun elsewhere => ?_,
    fun qualify unsent room => engineGrant_draws queue qualify unsent room⟩⟩, fun s c rest e queue own => ?_⟩
  · intro s'
    have asks := engineRequest_asks queue
    rw [own] at asks
    refine ⟨fun free alone => ?_, fun busy => ?_⟩
    · rw [State.engineAsk_free (by exact free) (by exact alone)] at asks
      have granted := s'.grantLink_granted e l []
      refine ⟨_, asks, granted.engine, ?_, fun k hk => ?_, granted.engines, ?_⟩
      · exact granted.link.trans (by rw [State.link_putLink])
      · exact (granted.links k hk).trans (State.link_putLink_other _ _ hk)
      · exact (congrArg (fun x : State => { x with links := s.links, engines := s.engines }) granted.rest :)
    · rw [State.engineAsk_waits (by exact busy)] at asks
      exact ⟨_, asks, waitInsert_splits _ _⟩
  · intro s'
    have departs := engineDeparture_departs queue
    rw [own] at departs
    have record := State.record_putLink (s := s) (l := l) (lk := { s.link l with toEngine := rest }) rfl
    have may : ∀ p, s'.mayCheck p ↔ s.mayCheck p := State.mayCheck_congr record fun _ => rfl
    refine ⟨fun not_ => ?_, fun owns alone => ?_, fun k p ws owns list hk => ?_, fun c p ws owns list => ⟨fun quiet => ?_,
      fun busy none_ => ?_⟩⟩
    · rw [State.engineDeparts_leaves (by exact not_)] at departs
      exact departs
    all_goals
      have head : ∀ w : WaitEntry, w.who ≠ .link l → ∀ ws : List WaitEntry,
          ((w :: ws).filter fun w => !decide (w.who = .link l)) = w :: ws.filter fun w => !decide (w.who = .link l) :=
        fun w hw ws => List.filter_cons_of_pos (by rw [decide_eq_false hw]; rfl)
      rw [State.engineDeparts_releases (by exact owns)] at departs
    · rw [show (s'.engine e).waiting = [] from alone] at departs
      exact departs
    · rw [show (s'.engine e).waiting = _ from list, head _ (fun x => hk (Owner.link.inj x))] at departs
      have granted := s'.grantLink_granted e k (ws.filter fun w => !decide (w.who = .link l))
      refine ⟨_, departs, ?_⟩
      change (State.engine (s'.grantLink e k _) e).phase = _ ∧ (State.engine (s'.grantLink e k _) e).owner = _ ∧
        (State.engine (s'.grantLink e k _) e).waiting = _ ∧ State.link (s'.grantLink e k _) k = _
      rw [granted.engine, granted.link, State.link_putLink_other _ _ hk]
      exact ⟨rfl, rfl, rfl, rfl⟩
    · rw [show (s'.engine e).waiting = _ from list, head ⟨.self c, p⟩ nofun, State.grantNext_runs ((may c.port).2 quiet)] at departs
      have begun := s'.beginSelfCheck_begun e c (ws.filter fun w => !decide (w.who = .link l))
      refine ⟨_, departs, ?_, ?_, ?_, ?_, ?_, ?_, fun leg => ?_⟩
      · rw [begun.engine]; rfl
      · rw [begun.engine]; rfl
      · rw [begun.engine]; rfl
      · rw [begun.engine]; rfl
      · rw [begun.engine]; rfl
      · rw [begun.engine]; rfl
      · rw [begun.port leg]
        exact congrArg (fun r : LinkRecord => { r with selfCheck := true }) (record (linkOf c.port leg))
    · rw [show (s'.engine e).waiting = _ from list, none_, head ⟨.self c, p⟩ nofun,
        State.grantNext_refuses fun x => State.not_mayCheck busy ((may c.port).1 x)] at departs
      exact departs
  · rw [engineGrant_takes queue]
    unfold State.takeGrant
    rw [State.dropEvent_eq queue, State.link_putLink]
    exact congrArg Host.Outcome.next (if_neg elsewhere)
  · intro s'
    subst own
    have asks := selfCheckRequest_asks queue
    refine ⟨fun checking => ?_, fun unchecked => ?_⟩
    · rw [State.selfCheckAsk_refused (by exact checking)] at asks
      exact asks
    · have not_ : ¬(s'.engine (engineOf c.port)).checking c.port := by
        rintro ⟨d, own, owner | ⟨q, waits⟩⟩
        · exact (unchecked d own).1 owner
        · exact (unchecked d own).2 q waits
      rw [State.selfCheckAsk_asks (by exact not_)] at asks
      refine ⟨fun busy => ?_, fun free alone => ⟨fun busy => ?_, fun quiet => ?_⟩⟩
      · rw [State.engineAsk_waits (by exact busy)] at asks
        exact ⟨_, asks, (mem_waitInsert _ _ _).2 (.inl rfl), fun w hw => (mem_waitInsert _ _ _).2 (.inr hw)⟩
      · rw [State.engineAsk_free (by exact free) (by exact alone),
          State.grantNext_refuses (by exact State.not_mayCheck busy)] at asks
        exact asks
      · rw [State.engineAsk_free (by exact free) (by exact alone), State.grantNext_runs (by exact quiet)] at asks
        have begun := s'.beginSelfCheck_begun (engineOf c.port) c []
        refine ⟨_, asks, ?_, ?_, ?_, ?_, ?_, ?_, ?_, ?_, fun leg => ?_⟩
        · rw [begun.engine]; rfl
        · rw [begun.engine]; rfl
        · rw [begun.engine]; rfl
        · rw [begun.engine]; rfl
        · rw [begun.engine]; rfl
        · exact (congrArg State.selfRequests begun.rest :)
        · exact (congrArg State.contexts begun.rest :)
        · exact (congrArg State.hostMem begun.rest :)
        · rw [begun.port leg]
          exact ⟨rfl, rfl⟩

end Sys2Proof.Machine
end


section
/-! PROOFS. The start of a run (O57). -/
namespace Sys2Proof.Machine

-- One declaration at a time: the threads of a parallel elaboration exceed the memory of the check.
set_option Elab.async false

/-- The run that starts for a link in QUALIFY (R119). -/
def State.runOf (s : State) (l : LinkId) : Engine :=
  { Engine.running (.link l) (s.engine (engineOfLink l)).waiting ((s.link l).runSeed (s.env l))
      (windowWords ((s.link l).runUnits (s.env l))) with place := (s.engine (engineOfLink l)).place }

theorem State.tryRunStart_starts {s : State} {l : LinkId} (due : (s.link l).runDue = true)
    (owns : (s.engine (engineOfLink l)).owner = some (.link l)) : s.tryRunStart l =
      (s.putEngine (engineOfLink l) (s.runOf l)).putLink l ((s.link l).startRun (s.env l)) := by
  unfold State.tryRunStart
  exact (if_pos ⟨due, owns⟩).trans (State.onLink_quiet rfl)

/-- The seed of a run: that of the end whose tag is the lower (R119). -/
theorem Link.runSeed_lower {e : Env} {lk : Link} {n : Neighbour} {own peer : Word} (neighbour : lk.record.neighbour = some n)
    (ownSeed : lk.ownSeed = some own) (peerSeed : lk.stage.peerSeed = some peer) (ownSet : own ≠ 0) (peerSet : peer ≠ 0) :
    lk.runSeed e = if n.tag.lower e.ownTag then peer else own := by
  have tag : lk.neighbourTag = some n.tag := by
    unfold Link.neighbourTag
    rw [neighbour]
    rfl
  have kept : ∀ w : Word, w ≠ 0 → seedValue w = w := fun w hw => if_neg hw
  unfold Link.runSeed
  rw [tag, ownSeed, peerSeed]
  dsimp only [Option.getD_some]
  by_cases lower : n.tag.lower e.ownTag = true
  · rw [if_pos lower, kept peer peerSet]
  · rw [if_neg lower, kept own ownSet]

/-- A link in QUALIFY with its grant, which has sent and received QUAL_READY. -/
structure Link.Ready (y : Link) (own peer : Word) : Prop where
  qualify : y.record.state = .qualify
  granted : y.stage.granted = true
  sent : y.stage.qualReadySent = true
  received : y.stage.qualReadyRecv = true
  waits : y.stage.run = .notStarted
  ownSeed : y.ownSeed = some own
  peerSeed : y.stage.peerSeed = some peer

theorem Link.Ready.due {y : Link} {own peer : Word} (h : y.Ready own peer) : y.runDue = true :=
  decide_eq_true ⟨h.qualify, h.granted, h.sent, h.received, h.waits⟩

/-- QUAL_READY received last, or sent last, leaves a link ready, and the run is tried. -/
theorem qualReady_last {l : LinkId} {s : State} {own peer : Word} {n : Neighbour} {c : Instr}
    (qualify : (s.link l).record.state = .qualify) (granted : (s.link l).stage.granted = true)
    (waits : (s.link l).stage.run = .notStarted) (ownSeed : (s.link l).ownSeed = some own)
    (neighbour : (s.link l).record.neighbour = some n)
    (h : (∃ rest, c = .qualReadyReceived l ∧ (s.link l).inbox = .page ⟨n.tag, .qualReady peer⟩ :: rest ∧
        (s.link l).stage.qualReadySent = true) ∨
      (∃ now b h, c = .pageTxEnd l now ∧ (s.link l).sending = some ⟨.item (.qualReady own), b, h⟩ ∧
        (s.link l).stage.qualReadyRecv = true ∧ (s.link l).stage.peerSeed = some peer)) :
    ∃ x : State, exec c s = .next (x.tryRunStart l) ∧ OnlyLink l s x ∧ (x.link l).Ready own peer ∧
      (x.link l).record = (s.link l).record ∧ (x.link l).peerUnits = (s.link l).peerUnits := by
  rcases h with ⟨rest, rfl, queue, sent⟩ | ⟨now, b, h, rfl, sending, received, peerSeed⟩
  · have from_ : (s.link l).neighbourTag = some n.tag := by
      unfold Link.neighbourTag
      rw [neighbour]
      rfl
    have link : ((s.dropEvent l).onLink l fun _ lk => lk.qualReadyArrives n.tag peer).link l =
        ({ s.link l with inbox := rest } : Link).readied peer :=
      (s.link_takeEvent l _ queue).trans (Link.qualReadyArrives_kept (by exact from_) (by exact qualify)
        (by exact fun ended => absurd (waits.symm.trans ended) nofun) peer)
    refine ⟨_, ?_, s.takeEvent_only l fun _ lk => lk.qualReadyArrives n.tag peer, ?_⟩
    · change execQualReadyReceived l s = _
      unfold execQualReadyReceived
      rw [queue]
    · rw [link]
      exact ⟨⟨qualify, granted, sent, rfl, waits, ownSeed, rfl⟩, rfl, rfl⟩
  · have link : (s.onLink l fun e lk => lk.txEnd e now).link l = { s.link l with
        sending := none, stage := { (s.link l).stage with qualReadySent := true } } := by
      rw [State.link_onLink]
      unfold Link.txEnd
      rw [sending]
      exact if_pos ⟨qualify, granted, ownSeed⟩
    refine ⟨_, rfl, s.onLink_only l fun e lk => lk.txEnd e now, ?_⟩
    rw [link]
    exact ⟨⟨qualify, granted, rfl, received, waits, ownSeed, peerSeed⟩, rfl, rfl⟩

/-- Settles O57. -/
theorem runsStartWithBothReady : Obligations.RunsStartWithBothReady := by
  unfold Obligations.RunsStartWithBothReady
  intro l s e own n c peer at_ owner qualify granted waits ownSeed neighbour ownSet peerSet h
  subst at_
  obtain ⟨x, run, only, ready, record, units⟩ := qualReady_last qualify granted waits ownSeed neighbour h
  have engine : ∀ f, x.engine f = s.engine f := fun f => by
    unfold State.engine
    rw [only.engines]
  have starts := State.tryRunStart_starts ready.due (by rw [engine]; exact owner)
  rw [starts] at run
  have seed := Link.runSeed_lower (e := x.env l) (by rw [record]; exact neighbour) ready.ownSeed ready.peerSeed ownSet
    peerSet
  have here : ((x.putEngine (engineOfLink l) (x.runOf l)).putLink l ((x.link l).startRun (x.env l))).engine (engineOfLink l) =
    x.runOf l := x.engine_putEngine _ _
  have link : ((x.putEngine (engineOfLink l) (x.runOf l)).putLink l ((x.link l).startRun (x.env l))).link l =
    (x.link l).startRun (x.env l) := State.link_putLink ..
  refine ⟨_, run, ?_, ?_, ?_, ?_, ?_, ?_, ?_, ?_, ?_, ?_, ?_, ?_, fun f hf => ?_, fun k hk => ?_, only.contexts,
    only.hostMem⟩
  · rw [here]; rfl
  · rw [here]; rfl
  · rw [here]
    change some (max (x.env l).cls.units ((x.link l).peerUnits.getD 0) * 65536) = _
    rw [only.env, units]
    rfl
  · rw [here]
    change some ((x.link l).runSeed (x.env l)) = _
    rw [seed, only.env]
    rfl
  · rw [here]; rfl
  · rw [here]; rfl
  · rw [here]
    change (x.engine (engineOfLink l)).place = _
    rw [engine]
  · rw [here]
    change (x.engine (engineOfLink l)).waiting = _
    rw [engine]
  · rw [link]; rfl
  · rw [link]
    exact record
  · rw [link]; rfl
  · rw [link]; rfl
  · exact (x.engine_putEngine_other _ hf).trans (engine f)
  · exact (State.link_putLink_other _ _ hk).trans (only.others k hk)

end Sys2Proof.Machine
end


section
/-! PROOFS. The runs of the Lane Test Engines: what they count (O58). -/
namespace Sys2Proof.Machine

-- One declaration at a time: the threads of a parallel elaboration exceed the memory of the check.
set_option Elab.async false

/-! ## Start blocks and words that are not counted (R121) -/

theorem State.startBlock_idle {s : State} {e : EngineId} (h : (s.engine e).phase = .free ∨ (s.engine e).owner = none)
    (lane : Lane) : s.startBlock e lane = s := by
  unfold State.startBlock
  split
  · next phase owner => exact h.elim (fun x => absurd (phase.symm.trans x) nofun) fun x => absurd (owner.symm.trans x) nofun
  · next phase owner => exact h.elim (fun x => absurd (phase.symm.trans x) nofun) fun x => absurd (owner.symm.trans x) nofun
  · rfl

theorem State.startBlock_on {s : State} {e : EngineId} {o : Owner} (owner : (s.engine e).owner = some o)
    (busy : (s.engine e).phase ≠ .free) (lane : Lane) : s.startBlock e lane =
      if lane.val < s.runLanes o then s.putEngine e ((s.engine e).startLane lane) else s := by
  unfold State.startBlock
  split
  · next is => rw [Option.some.inj (is.symm.trans owner)]
  · next is => rw [Option.some.inj (is.symm.trans owner)]
  · next granted running =>
    cases phase : (s.engine e).phase with
    | free => exact absurd phase busy
    | granted => exact absurd owner (granted o phase)
    | running => exact absurd owner (running o phase)

theorem State.testWord_idle {s : State} {e : EngineId} (h : (s.engine e).phase = .free ∨ (s.engine e).owner = none)
    (lane : Lane) (word : BitVec 64) : s.testWord e lane word = s := by
  unfold State.testWord
  split
  · next owner _ =>
    have free := h.resolve_right (by rw [owner]; nofun)
    rw [free]
    exact ite_self s
  · rfl
  · rfl

theorem State.testWord_unplaced {s : State} {e : EngineId} {lane : Lane} (h : (s.engine e).place[lane] = none)
    (word : BitVec 64) : s.testWord e lane word = s := by
  unfold State.testWord
  split
  · next place => exact absurd (place.symm.trans h) nofun
  · rfl
  · rfl

theorem State.testWord_outside {s : State} {e : EngineId} {o : Owner} (owner : (s.engine e).owner = some o) {lane : Lane}
    (h : s.runLanes o ≤ lane.val) (word : BitVec 64) : s.testWord e lane word = s := by
  unfold State.testWord
  split
  · next is _ =>
    cases Option.some.inj (is.symm.trans owner)
    exact if_neg (Nat.not_lt.2 h)
  · rfl
  · rfl

theorem State.testWord_granted {s : State} {e : EngineId} {o : Owner} {lane : Lane} {n : Nat}
    (owner : (s.engine e).owner = some o) (inRun : lane.val < s.runLanes o) (place : (s.engine e).place[lane] = some n)
    (granted : (s.engine e).phase = .granted) (word : BitVec 64) :
    s.testWord e lane word = s.putEngine e ((s.engine e).hearWord lane n) := by
  unfold State.testWord
  rw [owner, place]
  dsimp only
  rw [if_pos inRun, granted]

theorem State.testWord_running {s : State} {e : EngineId} {o : Owner} {lane : Lane} {n : Nat} {seed : Word}
    (owner : (s.engine e).owner = some o) (inRun : lane.val < s.runLanes o) (place : (s.engine e).place[lane] = some n)
    (running : (s.engine e).phase = .running) (seeded : (s.engine e).seed = some seed) (word : BitVec 64) :
    s.testWord e lane word = s.countTestWord e o seed lane n word := by
  unfold State.testWord
  rw [owner, place]
  dsimp only
  rw [if_pos inRun, running, seeded]

/-! ## Words that are counted (R121) -/

/-- The engine after a word of the run: place, word counter and error counter of its lane. -/
def Engine.heard (en : Engine) (lane : Lane) (place : Nat) (expected word : BitVec 64) : Engine :=
  (en.hearWord lane place).countWord lane (decide (word ≠ expected))

theorem Engine.heard_eq (en : Engine) (lane : Lane) (place : Nat) (expected word : BitVec 64) :
    en.heard lane place expected word = { en with
      place := en.place.set lane (some (place + 1)),
      words := en.words.set lane (en.words[lane] + 1),
      errors := if word = expected then en.errors else en.errors.set lane (min 65535 (en.errors[lane] + 1)) } := by
  unfold Engine.heard Engine.countWord
  by_cases same : word = expected
  · rw [if_pos same, decide_eq_false (not_not_intro same)]
    rfl
  · rw [if_neg same, decide_eq_true same]
    rfl

theorem Engine.allCounted_iff {en : Engine} {window : Nat} (windowed : en.window = some window) (lanes : Nat) :
    en.allCounted lanes = true ↔ ∀ k : Lane, k.val < lanes → window ≤ en.words[k] := by
  unfold Engine.allCounted
  rw [windowed, List.all_eq_true]
  simp only [decide_eq_true_eq, Option.getD_some]
  constructor
  · intro all k hk
    refine all _ (List.mem_iff_getElem?.2 ⟨k.val, ?_⟩)
    rw [List.getElem?_take_of_lt hk, List.getElem?_eq_getElem (by rw [Vector.length_toList]; exact k.isLt)]
    rfl
  · intro all n hn
    obtain ⟨k, short, is⟩ := List.mem_iff_getElem.1 hn
    rw [List.length_take, Vector.length_toList] at short
    rw [← is, List.getElem_take]
    exact all ⟨k, by omega⟩ (by exact (by omega : k < lanes))

theorem State.countTestWord_full {s : State} {e : EngineId} {lane : Lane} {window : Nat}
    (windowed : (s.engine e).window = some window) (full : window ≤ (s.engine e).words[lane]) (o : Owner) (seed : Word)
    (place : Nat) (word : BitVec 64) : s.countTestWord e o seed lane place word = s := by
  refine if_neg ?_
  rw [windowed]
  exact Nat.not_lt.2 full

theorem State.countTestWord_counts {s : State} {e : EngineId} {o : Owner} {seed : Word} {lane : Lane} {window : Nat}
    (windowed : (s.engine e).window = some window) (open_ : (s.engine e).words[lane] < window) (place : Nat)
    (word : BitVec 64) {en : Engine}
    (heard : en = (s.engine e).heard lane place (Config.patternWord seed (s.patternLane o lane) place) word) :
    s.countTestWord e o seed lane place word =
      if en.allCounted (s.runLanes o) then (s.putEngine e en).endRun e else s.putEngine e en := by
  subst heard
  refine if_pos ?_
  rw [windowed]
  exact open_

/-- The words of an engine after a word on one lane. -/
theorem Engine.heard_words (en : Engine) (lane : Lane) (place : Nat) (expected word : BitVec 64) :
    (en.heard lane place expected word).words[lane] = en.words[lane] + 1 ∧
    ∀ k : Lane, k ≠ lane → (en.heard lane place expected word).words[k] = en.words[k] := by
  rw [en.heard_eq]
  exact ⟨Vector.getElem_set_self _, fun k hk => Vector.getElem_set_ne lane.isLt k.isLt fun h => hk (Fin.ext h.symm)⟩

/-- A word that is not the last that every lane counts. -/
theorem State.countTestWord_goesOn {s : State} {e : EngineId} {o : Owner} {seed : Word} {lane : Lane} {window : Nat}
    (windowed : (s.engine e).window = some window) (inRun : lane.val < s.runLanes o)
    (open_ : (s.engine e).words[lane] < window) (more : (s.engine e).words[lane] + 1 < window ∨
      ∃ k : Lane, k ≠ lane ∧ k.val < s.runLanes o ∧ (s.engine e).words[k] < window) (place : Nat) (word : BitVec 64) :
    s.countTestWord e o seed lane place word = s.putEngine e
      ((s.engine e).heard lane place (Config.patternWord seed (s.patternLane o lane) place) word) := by
  rw [State.countTestWord_counts windowed open_ place word rfl]
  refine if_neg fun all => ?_
  rw [Engine.allCounted_iff (window := window) (by rw [Engine.heard_eq]; exact windowed)] at all
  obtain ⟨here, others⟩ := (s.engine e).heard_words lane place (Config.patternWord seed (s.patternLane o lane) place) word
  rcases more with below | ⟨k, hk, inRun', below⟩
  · have counted := all lane inRun
    rw [here] at counted
    exact Nat.not_le.2 below counted
  · have counted := all k inRun'
    rw [others k hk] at counted
    exact Nat.not_le.2 below counted

/-- The word that completes the window of every lane. -/
theorem State.countTestWord_last {s : State} {e : EngineId} {o : Owner} {seed : Word} {lane : Lane} {window : Nat}
    (windowed : (s.engine e).window = some window) (last : (s.engine e).words[lane] + 1 = window)
    (others : ∀ k : Lane, k ≠ lane → k.val < s.runLanes o → window ≤ (s.engine e).words[k]) (place : Nat)
    (word : BitVec 64) : s.countTestWord e o seed lane place word = (s.putEngine e
      ((s.engine e).heard lane place (Config.patternWord seed (s.patternLane o lane) place) word)).endRun e := by
  rw [State.countTestWord_counts windowed (by omega) place word rfl]
  refine if_pos ((Engine.allCounted_iff (window := window) (by rw [Engine.heard_eq]; exact windowed) _).2 fun k hk => ?_)
  obtain ⟨here, same⟩ := (s.engine e).heard_words lane place (Config.patternWord seed (s.patternLane o lane) place) word
  by_cases is : k = lane
  · rw [is, here, last]
  · rw [same k is]
    exact others k is hk

/-! ## The run limit (R121) -/

theorem runLimitExpiry_idle {s : State} {e : EngineId} (h : (s.engine e).phase ≠ .running) :
    exec (.runLimitExpiry e) s = .next s := by
  change execRunLimitExpiry e s = _
  unfold execRunLimitExpiry
  split
  · next running => exact absurd running h
  · rfl
  · rfl

theorem runLimitExpiry_ends {s : State} {e : EngineId} (h : (s.engine e).phase = .running) :
    exec (.runLimitExpiry e) s = .next ((s.putEngine e (s.engine e).addShortfall).endRun e) := by
  change execRunLimitExpiry e s = _
  unfold execRunLimitExpiry
  rw [h]

theorem Engine.addShortfall_errors {en : Engine} {window : Nat} (windowed : en.window = some window) (i : Lane) :
    en.addShortfall.errors[i] = min 65535 (en.errors[i] + (window - en.words[i])) := by
  have at_ : ∀ v : Vector Nat 8, v.toList.getD i.val 0 = v[i] := fun v => by
    rw [List.getD_eq_getElem?_getD, List.getElem?_eq_getElem (by rw [Vector.length_toList]; exact i.isLt)]
    rfl
  refine (Bank.getElem_of 8 _ i.val i.isLt).trans ?_
  dsimp only
  rw [at_, at_, windowed]
  rfl

/-- What a command that ends a run has made of its engine: its errors are those of the run's end. -/
structure Engine.Done (en : Engine) (o : Owner) (waiting : List WaitEntry) (window : Nat) (errs : Lane → Nat) : Prop where
  owner : en.owner = some o
  waiting : en.waiting = waiting
  window : en.window = some window
  errors : ∀ i : Lane, en.errors[i] = errs i

/-- The two ways a run ends: at its limit, and with the last word that every lane counts (R121). -/
theorem run_ends {s : State} {e : EngineId} {o : Owner} {window : Nat} {c : Instr} {errs : Lane → Nat}
    (running : (s.engine e).phase = .running) (owner : (s.engine e).owner = some o)
    (windowed : (s.engine e).window = some window)
    (h : (c = .runLimitExpiry e ∧
        ∀ i : Lane, errs i = min 65535 ((s.engine e).errors[i] + (window - (s.engine e).words[i]))) ∨
      (∃ (lane : Lane) (word : BitVec 64) (n : Nat) (seed : Word), c = .testWordReceived e lane word ∧
        (s.engine e).seed = some seed ∧ lane.val < s.runLanes o ∧ (s.engine e).place[lane] = some n ∧
        (s.engine e).words[lane] + 1 = window ∧
        (∀ k : Lane, k ≠ lane → k.val < s.runLanes o → window ≤ (s.engine e).words[k]) ∧
        ∀ i : Lane, errs i = if i = lane ∧ word ≠ Config.patternWord seed (s.patternLane o lane) n then
          min 65535 ((s.engine e).errors[i] + 1) else (s.engine e).errors[i])) :
    ∃ en : Engine, exec c s = .next ((s.putEngine e en).endRun e) ∧
      en.Done o (s.engine e).waiting window errs := by
  rcases h with ⟨rfl, errors⟩ | ⟨lane, word, n, seed, rfl, seeded, inRun, place, last, others, errors⟩
  · exact ⟨_, runLimitExpiry_ends running, owner, rfl, windowed, fun i =>
      (Engine.addShortfall_errors windowed i).trans (errors i).symm⟩
  · refine ⟨(s.engine e).heard lane n (Config.patternWord seed (s.patternLane o lane) n) word, ?_, ?_⟩
    · exact congrArg Host.Outcome.next ((State.testWord_running owner inRun place running seeded word).trans
        (State.countTestWord_last windowed last others n word))
    · rw [Engine.heard_eq]
      refine ⟨owner, rfl, windowed, fun i => ?_⟩
      rw [errors i]
      dsimp only
      by_cases same : word = Config.patternWord seed (s.patternLane o lane) n
      · rw [if_pos same, if_neg fun h => h.2 same]
      · rw [if_neg same]
        by_cases is : i = lane
        · rw [if_pos ⟨is, same⟩, is]
          exact Vector.getElem_set_self _
        · rw [if_neg fun h => is h.1]
          exact Vector.getElem_set_ne lane.isLt i.isLt fun h => is (Fin.ext h.symm)

end Sys2Proof.Machine
end


section
/-! PROOFS. The runs of the Lane Test Engines: how they end (O58). -/
namespace Sys2Proof.Machine

-- One declaration at a time: the threads of a parallel elaboration exceed the memory of the check.
set_option Elab.async false

/-! ## What a release leaves (R115, R130) -/

/-- Work at one engine: no other engine, no row, no record of the log and no byte of memory is changed. -/
structure EngineWork (e : EngineId) (s t : State) : Prop where
  engines : ∀ f, f ≠ e → t.engine f = s.engine f
  rows : t.rows = s.rows
  log : t.log = s.log
  hostMem : t.hostMem = s.hostMem

theorem EngineWork.trans {e : EngineId} {s t u : State} (h : EngineWork e s t) (k : EngineWork e t u) :
    EngineWork e s u where
  engines f hf := (k.engines f hf).trans (h.engines f hf)
  rows := k.rows.trans h.rows
  log := k.log.trans h.log
  hostMem := k.hostMem.trans h.hostMem

theorem State.putEngine_work (s : State) (e : EngineId) (en : Engine) : EngineWork e s (s.putEngine e en) :=
  ⟨fun _ hf => s.engine_putEngine_other en hf, rfl, rfl, rfl⟩

theorem State.send_work (s : State) (e : EngineId) (l : LinkId) (ev : SeqEvent) : EngineWork e s (s.send l ev) :=
  ⟨fun _ _ => rfl, rfl, rfl, rfl⟩

theorem State.endOrder_work (s : State) (e : EngineId) (q : Word) (st : Status) (result : List Byte) :
    EngineWork e s (s.endOrder q st result) where
  engines f _ := by
    unfold State.engine
    rw [State.endOrder_engines]
  rows := (congrArg State.rows (s.endOrder_rest q st result) :)
  log := (congrArg State.log (s.endOrder_rest q st result) :)
  hostMem := (congrArg State.hostMem (s.endOrder_rest q st result) :)

theorem State.onPort_work (s : State) (e : EngineId) (p : PortId) (f : Env → Link → Link) :
    EngineWork e s (s.onPort p f) where
  engines g _ := by
    unfold State.engine
    rw [State.onPort_engines]
  rows := (congrArg State.rows (s.onPort_rest p f) :)
  log := (congrArg State.log (s.onPort_rest p f) :)
  hostMem := (congrArg State.hostMem (s.onPort_rest p f) :)

theorem State.onPort_contexts (s : State) (p : PortId) (f : Env → Link → Link) :
    (s.onPort p f).contexts = s.contexts := (congrArg State.contexts (s.onPort_rest p f) :)

theorem SelfBegun.work {e : EngineId} {c : SelfCheck} {waiting : List WaitEntry} {s t : State}
    (h : SelfBegun e c waiting s t) : EngineWork e s t where
  engines := h.engines
  rows := (congrArg State.rows h.rest :)
  log := (congrArg State.log h.rest :)
  hostMem := (congrArg State.hostMem h.rest :)

theorem State.grantNext_work (s : State) (e : EngineId) (list : List WaitEntry) : EngineWork e s (s.grantNext e list) := by
  induction list generalizing s with
  | nil => exact s.putEngine_work e _
  | cons w rest ih =>
    obtain ⟨who, p⟩ := w
    cases who with
    | link l => exact (s.putEngine_work e _).trans (State.send_work _ e l .grant)
    | self c =>
      by_cases quiet : s.mayCheck c.port
      · rw [State.grantNext_runs quiet]
        exact (s.beginSelfCheck_begun e c rest).work
      · rw [State.grantNext_refuses quiet]
        exact (s.endOrder_work e _ _ _).trans (ih _)

/-! ## The LMIs of a run (R122, R126) -/

theorem State.runLanes_le (s : State) (o : Owner) : s.runLanes o ≤ 8 := by
  cases o with
  | self c => exact Nat.le_refl 8
  | link l =>
    change legWidth (s.splitOf (portOf l)) (legOf l) ≤ 8
    unfold legWidth
    split
    · split <;> decide
    · decide

theorem Engine.length_lmis (en : Engine) {lanes : Nat} (h : lanes ≤ 8) : (en.lmis lanes).length = lanes := by
  unfold Engine.lmis
  rw [List.length_map, List.length_take, Vector.length_toList, Nat.min_eq_left h]

theorem Engine.Done.lmis_at {en : Engine} {o : Owner} {waiting : List WaitEntry} {window : Nat} {errs : Lane → Nat}
    (h : en.Done o waiting window errs) {lanes : Nat} {i : Lane} (hi : i.val < lanes) :
    (en.lmis lanes)[i.val]? = some (laneLmi window (errs i)) := by
  have at_ : en.errors.toList[i.val]? = some (errs i) := by
    rw [List.getElem?_eq_getElem (by rw [Vector.length_toList]; exact i.isLt)]
    exact congrArg some (h.errors i)
  unfold Engine.lmis
  rw [List.getElem?_map, List.getElem?_take_of_lt hi, at_, h.window]
  rfl

/-! ## The end of a link's run (R122) -/

/-- The end of a link's run as it reaches the sequencer. -/
def State.runReport (s : State) (l : LinkId) (lmis : List Nat) : SeqEvent :=
  .runResult lmis (legLmiOf lmis)
    (localVerdict (s.classOf l) (legLmiOf lmis) ((s.link l).record.skewSpan.getD 0))

theorem State.endRun_link {s : State} {e : EngineId} {l : LinkId} {en : Engine} (owner : en.owner = some (.link l)) :
    (s.putEngine e en).endRun e =
      ((s.putEngine e en).send l (s.runReport l (en.lmis (s.runLanes (.link l))))).grantNext e en.waiting := by
  unfold State.endRun
  rw [State.engine_putEngine, owner]
  dsimp only
  unfold State.endLinkRun
  dsimp only
  rw [State.engine_putEngine]
  rfl

theorem State.endRun_self {s : State} {e : EngineId} {c : SelfCheck} {en : Engine} (owner : en.owner = some (.self c)) :
    (s.putEngine e en).endRun e = ((s.putEngine e en).endOrder c.ref .ok
      (selfCheckResult c.units c.threshold (en.lmis 8))).leaveSelfCheck e c.port en.waiting := by
  unfold State.endRun
  rw [State.engine_putEngine, owner]
  dsimp only
  unfold State.endSelfRun
  dsimp only
  rw [State.engine_putEngine]

theorem State.endRun_work {s : State} {e : EngineId} {en : Engine} {o : Owner} (owner : en.owner = some o) :
    EngineWork e s ((s.putEngine e en).endRun e) := by
  cases o with
  | link l =>
    rw [State.endRun_link owner]
    exact ((s.putEngine_work e en).trans (State.send_work _ e l _)).trans (State.grantNext_work _ e _)
  | self c =>
    rw [State.endRun_self owner, State.leaveSelfCheck_eq]
    exact ((((s.putEngine_work e en).trans (State.endOrder_work _ e _ _ _)).trans (State.onPort_work _ e _ _)).trans
      (State.grantNext_work _ e _)).trans (State.onPort_work _ e _ _)

/-! ## The end of a self-check's run (R131, R173) -/

theorem presentBits_lt (xs : List (Option Nat)) : presentBits xs < 2 ^ xs.length := by
  induction xs with
  | nil => exact Nat.one_pos
  | cons x xs ih =>
    unfold presentBits bit
    rw [List.length_cons, Nat.pow_succ]
    split <;> omega

theorem testBit_presentBits (xs : List (Option Nat)) (i : Nat) :
    (presentBits xs).testBit i = (xs[i]?.getD none).isSome := by
  induction xs generalizing i with
  | nil => exact Nat.zero_testBit i
  | cons x xs ih =>
    unfold presentBits bit
    cases i with
    | zero =>
      rw [Nat.testBit_zero]
      cases x <;> simp
    | succ i =>
      rw [Nat.testBit_succ, List.getElem?_cons_succ, ← ih i]
      refine congrArg (Nat.testBit · i) ?_
      split <;> omega

/-- The result of a self-check: its units, the count of passing lanes, their flags, and the eight LMIs (R173). -/
theorem selfCheckResult_eq (units threshold : Nat) {lmis : List Nat} (eight : lmis.length = 8) :
    ∃ flags, flags < 256 ∧ (∀ i v, lmis[i]? = some v → flags.testBit i = decide (threshold ≤ v)) ∧
      selfCheckResult units threshold lmis = leBytes 2 units ++
        byte1 (lmis.filter fun v => decide (threshold ≤ v)).length ++ byte1 flags ++ (lmis.map (leBytes 2)).flatten := by
  obtain ⟨bits, hbits⟩ : ∃ bits : List (Option Nat), bits =
    (lmis.map fun v => decide (threshold ≤ v)).map fun b => if b then some 0 else none := ⟨_, rfl⟩
  refine ⟨presentBits bits, ?_, fun i v hv => ?_, ?_⟩
  · have bound := presentBits_lt bits
    rwa [hbits, List.length_map, List.length_map, eight, ← hbits] at bound
  · rw [testBit_presentBits, hbits, List.getElem?_map, List.getElem?_map, hv]
    by_cases passes : threshold ≤ v
    · simp [passes]
    · simp [passes]
  · have padded : padTo 8 [0, 0] (lmis.map (leBytes 2)) = lmis.map (leBytes 2) := by
      unfold padTo
      exact List.take_left' (by rw [List.length_map, eight])
    have count : ((lmis.map fun v => decide (threshold ≤ v)).filter id).length =
        (lmis.filter fun v => decide (threshold ≤ v)).length := by
      rw [List.filter_map, List.length_map]
      rfl
    unfold selfCheckResult
    dsimp only
    rw [padded, count, hbits]

theorem State.onPort_queue (s : State) (p : PortId) (f : Env → Link → Link) :
    s.writeQueue <+: (s.onPort p f).writeQueue :=
  (s.onLink_only (linkOf p 0) f).queueKept.trans (State.onLink_only _ (linkOf p 1) f).queueKept

/-- The rows decide whether a link may run. -/
theorem State.env_runs {s t : State} (h : t.rows = s.rows) (l : LinkId) :
    (t.env l).usable = (s.env l).usable ∧ (t.env l).present = (s.env l).present := by
  have row : ∀ p, t.row p = s.row p := fun p => by
    unfold State.row
    rw [h]
  constructor
  · change (t.row _).usable = (s.row _).usable
    rw [row]
  · unfold Env.present State.env State.splitOf
    rw [row]

theorem Link.afterSelfCheck_listens {e : Env} {lk : Link} (off : lk.record.state = .off) (usable : e.usable = true)
    (present : e.present = true) (up : lk.record.adminDown = false) :
    (lk.selfCheckFlagOff.afterSelfCheck e).record.state = .listen ∧
    (lk.selfCheckFlagOff.afterSelfCheck e).record.selfCheck = false := by
  refine ⟨?_, Link.afterSelfCheck_flag e _⟩
  have may : lk.selfCheckFlagOff.mayRun e = true := by
    unfold Link.mayRun Link.selfCheckFlagOff
    rw [usable, present, up]
    rfl
  rw [show lk.selfCheckFlagOff.afterSelfCheck e = lk.selfCheckFlagOff.move e .listen from if_pos ⟨off, may⟩,
    Link.move_record, LinkRecord.move_state]

theorem Link.afterSelfCheck_stays {e : Env} {lk : Link} (h : lk.record.state ≠ .off ∨ e.usable = false ∨
    e.present = false ∨ lk.record.adminDown = true) :
    lk.selfCheckFlagOff.afterSelfCheck e = lk.selfCheckFlagOff := by
  refine if_neg fun both => ?_
  obtain ⟨off, may⟩ := both
  unfold Link.mayRun at may
  simp only [Bool.and_eq_true, Bool.not_eq_true'] at may
  obtain ⟨⟨⟨usable, present⟩, up⟩, -⟩ := may
  rcases h with other | unusable | absent | down
  · exact other off
  · exact absurd (usable.symm.trans unusable) nofun
  · exact absurd (present.symm.trans absent) nofun
  · exact absurd (down.symm.trans up) nofun

/-- The links of a port leave a self-check whose engine nobody waits for (R131). -/
theorem State.leaveSelfCheck_alone (s : State) (e : EngineId) (p : PortId) :
    (s.leaveSelfCheck e p []).engine e = Engine.free [] ∧ (s.leaveSelfCheck e p []).contexts = s.contexts ∧
    s.writeQueue <+: (s.leaveSelfCheck e p []).writeQueue ∧
    ∀ leg : Fin 2, ∃ env : Env, env.usable = (s.env (linkOf p leg)).usable ∧ env.present = (s.env (linkOf p leg)).present ∧
      (s.leaveSelfCheck e p []).link (linkOf p leg) = (s.link (linkOf p leg)).selfCheckFlagOff.afterSelfCheck env := by
  obtain ⟨z, hz⟩ : ∃ z : State, z = (s.onPort p fun _ lk => lk.selfCheckFlagOff).putEngine e (Engine.free []) := ⟨_, rfl⟩
  have rest := s.onPort_rest p fun _ lk => lk.selfCheckFlagOff
  have rows : z.rows = s.rows := by
    rw [hz, State.putEngine_rows]
    exact (congrArg State.rows rest :)
  have contexts : z.contexts = s.contexts := by
    rw [hz, State.putEngine_contexts, State.onPort_contexts]
  have queue : s.writeQueue <+: z.writeQueue := by
    rw [hz, State.putEngine_writeQueue]
    exact s.onPort_queue p fun _ lk => lk.selfCheckFlagOff
  have engine : z.engine e = Engine.free [] := by rw [hz]; exact State.engine_putEngine ..
  have link : ∀ leg, z.link (linkOf p leg) = (s.link (linkOf p leg)).selfCheckFlagOff := fun leg => by
    rw [hz]
    exact s.link_onPort p (fun _ lk => lk.selfCheckFlagOff) leg
  have is : s.leaveSelfCheck e p [] = z.onPort p fun env lk => lk.afterSelfCheck env := by
    rw [s.leaveSelfCheck_eq, hz]
    rfl
  rw [is]
  refine ⟨?_, ?_, queue.trans (z.onPort_queue p _), fun leg => ?_⟩
  · unfold State.engine
    rw [State.onPort_engines]
    exact engine
  · rw [State.onPort_contexts, contexts]
  · obtain ⟨usable, present⟩ := State.env_runs rows (linkOf p leg)
    exact ⟨z.env (linkOf p leg), usable, present, by rw [State.link_onPort, link]⟩

end Sys2Proof.Machine
end


section
/-! PROOFS. The runs of the Lane Test Engines: counting, and the end that each owner sees (O58). -/
namespace Sys2Proof.Machine

-- One declaration at a time: the threads of a parallel elaboration exceed the memory of the check.
set_option Elab.async false

/-- What start blocks and words do to an engine whose run does not end (R121). -/
theorem runsCount (s : State) (e : EngineId) (lane : Lane) (word : BitVec 64) (o : Owner)
    (owner : (s.engine e).owner = some o) (busy : (s.engine e).phase ≠ .free) :
    (s.runLanes o ≤ lane.val →
      exec (.startBlockReceived e lane) s = .next s ∧ exec (.testWordReceived e lane word) s = .next s) ∧
    (lane.val < s.runLanes o →
      ((s.engine e).place[lane] = none →
        exec (.startBlockReceived e lane) s = .next (s.putEngine e
          { s.engine e with place := (s.engine e).place.set lane (some 0) }) ∧
        exec (.testWordReceived e lane word) s = .next s) ∧
      (∀ n, (s.engine e).place[lane] = some n →
        ((s.engine e).phase = .granted → exec (.testWordReceived e lane word) s = .next (s.putEngine e
          { s.engine e with place := (s.engine e).place.set lane (some (n + 1)) })) ∧
        ∀ seed window, (s.engine e).phase = .running → (s.engine e).seed = some seed →
          (s.engine e).window = some window →
          (window ≤ (s.engine e).words[lane] → exec (.testWordReceived e lane word) s = .next s) ∧
          ((s.engine e).words[lane] < window → ((s.engine e).words[lane] + 1 < window ∨
              ∃ k : Lane, k ≠ lane ∧ k.val < s.runLanes o ∧ (s.engine e).words[k] < window) →
            exec (.testWordReceived e lane word) s = .next (s.putEngine e { s.engine e with
              place := (s.engine e).place.set lane (some (n + 1)),
              words := (s.engine e).words.set lane ((s.engine e).words[lane] + 1),
              errors := if word = Config.patternWord seed (s.patternLane o lane) n then (s.engine e).errors else
                (s.engine e).errors.set lane (min 65535 ((s.engine e).errors[lane] + 1)) })))) := by
  have start : exec (.startBlockReceived e lane) s = .next (s.startBlock e lane) := rfl
  have hears : exec (.testWordReceived e lane word) s = .next (s.testWord e lane word) := rfl
  rw [start, hears, State.startBlock_on owner busy]
  refine ⟨fun outside => ?_, fun inRun => ⟨fun unplaced => ?_, fun n place => ⟨fun granted => ?_,
    fun seed window running seeded windowed => ?_⟩⟩⟩
  · rw [if_neg (Nat.not_lt.2 outside), State.testWord_outside owner outside]
    exact ⟨rfl, rfl⟩
  · have placed : (s.engine e).startLane lane =
        { s.engine e with place := (s.engine e).place.set lane (some 0) } := if_pos unplaced
    rw [if_pos inRun, placed, State.testWord_unplaced unplaced]
    exact ⟨rfl, rfl⟩
  · rw [State.testWord_granted owner inRun place granted]
    rfl
  · rw [State.testWord_running owner inRun place running seeded]
    refine ⟨fun full => ?_, fun open_ more => ?_⟩
    · rw [State.countTestWord_full windowed full]
    · rw [State.countTestWord_goesOn windowed inRun open_ more, Engine.heard_eq]

/-- The end of a link's run, by who waits for the engine. -/
theorem linkRun_ends {s : State} {e : EngineId} {l : LinkId} {en : Engine} {list : List WaitEntry} {result : SeqEvent}
    (owner : en.owner = some (.link l)) (waiting : en.waiting = list)
    (is : result = s.runReport l (en.lmis (s.runLanes (.link l)))) {t : State} (ends : t = (s.putEngine e en).endRun e) :
    (list = [] → t.engine e = Engine.free [] ∧
      t.link l = { s.link l with inbox := (s.link l).inbox ++ [result] } ∧
      (∀ k, k ≠ l → t.link k = s.link k) ∧ { t with links := s.links, engines := s.engines } = s) ∧
    (∀ k p ws, list = ⟨.link k, p⟩ :: ws → k ≠ l →
      t.engine e = { Engine.free ws with phase := .granted, owner := some (.link k) } ∧
      t.link l = { s.link l with inbox := (s.link l).inbox ++ [result] } ∧
      t.link k = { s.link k with inbox := (s.link k).inbox ++ [.grant] } ∧
      (∀ j, j ≠ l → j ≠ k → t.link j = s.link j) ∧ { t with links := s.links, engines := s.engines } = s) ∧
    (∀ x p ws, list = ⟨.self x, p⟩ :: ws → s.mayCheck x.port →
      (t.engine e).phase = .running ∧ (t.engine e).owner = some (.self x) ∧ (t.engine e).waiting = ws ∧
      (t.link l).inbox = (s.link l).inbox ++ [result]) := by
  obtain ⟨x, hx⟩ : ∃ x : State, x = (s.putEngine e en).send l result := ⟨_, rfl⟩
  rw [State.endRun_link owner, ← is, ← hx, waiting] at ends
  have link : x.link l = { s.link l with inbox := (s.link l).inbox ++ [result] } := by
    rw [hx]
    exact State.link_send (s.putEngine e en) l result
  have others : ∀ k, k ≠ l → x.link k = s.link k := fun k hk => by
    rw [hx]
    exact State.link_send_other (s.putEngine e en) result hk
  have rest : { x with links := s.links, engines := s.engines } = s := by rw [hx]; rfl
  refine ⟨fun none_ => ?_, fun k p ws next hk => ?_, fun c p ws next quiet => ?_⟩
  · rw [none_] at ends
    rw [show t = x.putEngine e (Engine.free []) from ends]
    exact ⟨x.engine_putEngine e _, link, others, rest⟩
  · rw [next] at ends
    have granted : Granted e k ws x t := by
      rw [show t = x.grantLink e k ws from ends]
      exact x.grantLink_granted e k ws
    refine ⟨granted.engine, (granted.links l hk.symm).trans link, ?_, fun j hl hj => ?_, ?_⟩
    · rw [granted.link, others k hk]
    · exact (granted.links j hj).trans (others j hl)
    · exact (congrArg (fun y : State => { y with links := s.links, engines := s.engines }) granted.rest :).trans rest
  · have records : ∀ k, (x.link k).record = (s.link k).record := fun k => by
      by_cases hk : k = l
      · rw [hk, link]
      · rw [others k hk]
    have may : x.mayCheck c.port := (State.mayCheck_congr records (fun _ => by rw [hx]; rfl) c.port).2 quiet
    rw [next, State.grantNext_runs may] at ends
    have begun : SelfBegun e c ws x t := by
      rw [ends]
      exact x.beginSelfCheck_begun e c ws
    rw [begun.engine]
    refine ⟨rfl, rfl, rfl, ?_⟩
    have inbox : (x.link l).inbox = (s.link l).inbox ++ [result] := by rw [link]
    by_cases mine : portOf l = c.port
    · have ported := begun.port (legOf l)
      rw [← mine, linkOf_portOf] at ported
      rw [ported]
      exact inbox
    · rw [begun.links l mine]
      exact inbox

/-- The end of a self-check's run that nobody waits behind: its order ends with its result, and its port leaves it. -/
theorem selfRun_ends {s : State} {e : EngineId} {x : SelfCheck} {en : Engine} {ctx : Ctx} {thr units : Nat} {port : PortId}
    {window : Nat} {errs : Lane → Nat} (done : en.Done (.self x) [] window errs) (seqs : s.seqsOk)
    (there : ctx ∈ s.contexts) (seq : ctx.seq = x.ref) (active : ctx.phase = .active (.selfCheck port units thr) .atWork)
    {t : State} (ends : t = (s.putEngine e en).endRun e) :
    t.engine e = Engine.free [] ∧ { ctx with phase := .closing .ok false } ∈ t.contexts ∧
    (∃ flags, flags < 256 ∧ (∀ i : Lane, flags.testBit i.val = decide (x.threshold ≤ laneLmi window (errs i))) ∧
      s.resultEntry ctx.slot (leBytes 2 x.units ++
        byte1 ((en.lmis 8).filter fun v => decide (x.threshold ≤ v)).length ++ byte1 flags ++
        ((en.lmis 8).map (leBytes 2)).flatten) ∈ t.writeQueue) ∧
    s.doneEntry ctx.slot (some x.ref) false .ok ∈ t.writeQueue ∧
    ∀ leg : Fin 2, ∃ env : Env, env.usable = (s.row x.port).usable ∧
      env.present = (s.env (linkOf x.port leg)).present ∧
      t.link (linkOf x.port leg) = (s.link (linkOf x.port leg)).selfCheckFlagOff.afterSelfCheck env := by
  obtain ⟨y, hy⟩ : ∃ y : State, y = (s.putEngine e en).endOrder x.ref .ok
    (selfCheckResult x.units x.threshold (en.lmis 8)) := ⟨_, rfl⟩
  rw [State.endRun_self done.owner, ← hy, done.waiting] at ends
  have same : SameOrders s (s.putEngine e en) := ⟨rfl, rfl, rfl, rfl⟩
  rw [← seq, same.ends seqs there active] at hy
  have queue : y.writeQueue = s.writeQueue ++ [s.resultEntry ctx.slot
      (selfCheckResult x.units x.threshold (en.lmis 8)), s.doneEntry ctx.slot (some ctx.seq) false .ok] := by rw [hy]; rfl
  have contexts : y.contexts =
      s.contexts.map fun d => if d.seq = ctx.seq then { d with phase := .closing .ok false } else d := by rw [hy]; rfl
  have rows : y.rows = s.rows := by rw [hy]; rfl
  have link : ∀ l, y.link l = s.link l := fun l => by rw [hy]; rfl
  obtain ⟨engine, kept, queued, legs⟩ := y.leaveSelfCheck_alone e x.port
  rw [← ends] at engine kept queued legs
  obtain ⟨flags, small, bits, result⟩ := selfCheckResult_eq x.units x.threshold (en.length_lmis (Nat.le_refl 8))
  refine ⟨engine, ?_, ⟨flags, small, fun i => bits i.val _ (done.lmis_at i.isLt), ?_⟩, ?_, fun leg => ?_⟩
  · rw [kept, contexts]
    exact List.mem_map.2 ⟨ctx, there, if_pos rfl⟩
  · rw [← result]
    exact queued.subset (by rw [queue]; exact List.mem_append_right _ List.mem_cons_self)
  · rw [← seq]
    exact queued.subset (by rw [queue]; exact List.mem_append_right _ (List.mem_cons_of_mem _ List.mem_cons_self))
  · obtain ⟨env, usable, present, is⟩ := legs leg
    obtain ⟨usableIs, presentIs⟩ := State.env_runs rows (linkOf x.port leg)
    rw [link] at is
    refine ⟨env, (usable.trans usableIs).trans ?_, present.trans presentIs, is⟩
    change (s.row (portOf (linkOf x.port leg))).usable = _
    rw [portOf_linkOf]

/-- Settles O58. -/
theorem runsCountAndEnd : Obligations.RunsCountAndEnd := by
  unfold Obligations.RunsCountAndEnd
  refine ⟨fun s e lane word => ⟨fun idle => ?_, runLimitExpiry_idle, fun o owner busy =>
    runsCount s e lane word o owner busy⟩, fun s e o window c errs running owner windowed h => ?_⟩
  · have start : exec (.startBlockReceived e lane) s = .next (s.startBlock e lane) := rfl
    have hears : exec (.testWordReceived e lane word) s = .next (s.testWord e lane word) := rfl
    rw [start, hears, State.startBlock_idle idle, State.testWord_idle idle]
    exact ⟨rfl, rfl⟩
  · obtain ⟨en, run, done⟩ := run_ends running owner windowed h
    have work : EngineWork e s ((s.putEngine e en).endRun e) := State.endRun_work done.owner
    obtain ⟨t, ht⟩ : ∃ t : State, t = (s.putEngine e en).endRun e := ⟨_, rfl⟩
    rw [← ht] at run work
    refine ⟨t, en.lmis (s.runLanes o), run, en.length_lmis (s.runLanes_le o), fun i hi => done.lmis_at hi, work.engines,
      work.rows, work.log, work.hostMem, fun l result is_ report => ?_,
      fun x ctx thr port units is_ seqs there seq active alone => ?_⟩
    · subst is_
      exact linkRun_ends done.owner done.waiting report ht
    · subst is_
      rw [alone] at done
      obtain ⟨engine, closed, result, ended, legs⟩ := selfRun_ends done seqs there seq active ht
      refine ⟨engine, closed, result, ended, fun leg => ?_⟩
      obtain ⟨env, usable, present, is⟩ := legs leg
      rw [is]
      refine ⟨fun off canRun isPresent up =>
        Link.afterSelfCheck_listens off (usable.trans canRun) (present.trans isPresent) up, fun stays => ?_⟩
      rw [Link.afterSelfCheck_stays (by rw [usable, present]; exact stays)]
      rfl

end Sys2Proof.Machine
end
